-- ==== Sys2Proof/Word.lean ====
section
/-! DEFINITION. The value types of spec/00_scope.md rules R7 and R9: a byte is 8 bits, the length
field and the counters are 16 bits, command and response words are 32 bits. All values are unsigned
(rule R8). -/

namespace Sys2Proof

/-- `u8` of rule R9: one wire byte, one Frame Buffer byte, a type tag, a checksum. -/
abbrev Byte := BitVec 8

/-- `u16` of rule R9: DECLEN, and the 16-bit naturals POS, FLEN and TX_REM of rule R7. -/
abbrev Half := BitVec 16

/-- `u32` of rule R9: a command word or a response word. -/
abbrev Word := BitVec 32

end Sys2Proof
end

