-- ==== Sys2Proof/Syntax.lean ====
section
/-! DEFINITION. The instructions: one constructor per row of spec/opcode_table.json. Sixteen are
commands of the 32-bit command port (spec/30_encoding.md rules R91 and R92), five are the classes of
one wire byte (rule R100), which the host gives to the block as RX_BYTE does. -/

namespace Sys2Proof

/-- The command formats of rule R92. -/
inductive Format where
  | fn
  | fb
  | ft
  | fi
  | fx
deriving DecidableEq, Repr

/-- One constructor per row of the opcode table. A byte operand is the byte itself; a timeout, an
index and a payload count are naturals, "zero-extended to Nat" (rule R92). -/
inductive Instr where
  /-- NOP, rule R250. -/
  | nop
  /-- RX_BYTE b, rule R180: feed one wire byte to the decoder. -/
  | rxByte (b : Byte)
  /-- RX_POLL, rule R181: decode all available RX bytes. -/
  | rxPoll
  /-- RX_WAIT t, rule R182: blocking decode with a timeout of t milliseconds. -/
  | rxWait (t : Nat)
  /-- RX_ACK, rule R183: release the held result. -/
  | rxAck
  /-- RD_STATUS, rule R251. -/
  | rdStatus
  /-- RD_TAG, rule R252. -/
  | rdTag
  /-- RD_DECLEN, rule R253. -/
  | rdDeclen
  /-- RD_FLEN, rule R254. -/
  | rdFlen
  /-- RD_CKSUM, rule R255. -/
  | rdCksum
  /-- RD_BUF i, rule R256: read one Frame Buffer byte. -/
  | rdBuf (i : Nat)
  /-- VIEW_FOR, rule R257: type dispatch of the held frame. -/
  | viewFor
  /-- TX_BEGIN tag, n, rule R222: begin an outbound frame. -/
  | txBegin (tag : Byte) (n : Nat)
  /-- TX_DATA b, rule R223: one outbound payload byte. -/
  | txData (b : Byte)
  /-- RD_TXSTAT, rule R225. -/
  | rdTxstat
  /-- RESET, rule R341. -/
  | reset
  /-- WIRE_START, the start marker 0x7E (rules R161 and R162). -/
  | wireStart
  /-- WIRE_ESC, the escape marker 0x7D (rule R163). -/
  | wireEsc
  /-- WIRE_XON, 0x11: data on receive (rule R100). -/
  | wireXon
  /-- WIRE_XOFF, 0x13: data on receive (rule R100). -/
  | wireXoff
  /-- WIRE_DATA b, any other wire byte (rule R100). -/
  | wireData (b : Byte)
deriving DecidableEq, Repr

/-- What an instruction is encoded as: a whole 32-bit word of the command port, which has no byte
order (spec/20_memory.md rule R66), or one byte of the wire, which stands for the host's RX_BYTE of it
(notes/assumptions/5.md). -/
inductive Encoded where
  | command (w : Word)
  | wire (b : Byte)
deriving DecidableEq, Repr

/-- Why the decoder rejects a command word: a reserved bit of its format is set (rule R93). -/
inductive Reject where
  | reservedBits (f : Format)
deriving DecidableEq, Repr

end Sys2Proof
end

