-- ==== Sys2Proof/WellFormed.lean ====
section
/-! DEFINITION. The operand ranges of spec/30_encoding.md rule R103, and the class boundary of
WIRE_DATA (spec/opcode_table.json: "any other byte, lowest priority"). -/

namespace Sys2Proof

/-- An instruction that some encoding stands for: the assembler "rejects an operand outside the
field's range" (rule R103), and WIRE_DATA is none of the four special bytes. -/
def Instr.wf : Instr → Bool
  | .rxWait t => decide (t < 2 ^ 24)
  | .rdBuf i => decide (i < 2 ^ 16)
  | .txBegin _ n => decide (n < 2 ^ 16)
  | .wireData b => b != 0x7E#8 && b != 0x7D#8 && b != 0x11#8 && b != 0x13#8
  | .nop => true
  | .rxByte _ => true
  | .rxPoll => true
  | .rxAck => true
  | .rdStatus => true
  | .rdTag => true
  | .rdDeclen => true
  | .rdFlen => true
  | .rdCksum => true
  | .viewFor => true
  | .txData _ => true
  | .rdTxstat => true
  | .reset => true
  | .wireStart => true
  | .wireEsc => true
  | .wireXon => true
  | .wireXoff => true

end Sys2Proof
end

