-- ==== Sys2Proof/Decode.lean ====
section
/-! DEFINITION. The decoder of spec/30_encoding.md rule R102, total on every command word and every
wire byte, and the encoder written from the format tables of rule R92. -/

namespace Sys2Proof

/-- The start marker (rule R99). -/
def startByte : Byte := 0x7E#8

/-- The escape marker (rule R99). -/
def escByte : Byte := 0x7D#8

/-- XON (rule R99). -/
def xonByte : Byte := 0x11#8

/-- XOFF (rule R99). -/
def xoffByte : Byte := 0x13#8

/-- The opcode field w[31:28] (rule R90). -/
def opcodeField (w : Word) : Nat := (w.extractLsb' 28 4).toNat

/-- The byte operand w[7:0] of format FB. -/
def byteField (w : Word) : Byte := w.extractLsb' 0 8

/-- The timeout operand w[23:0] of format FT, zero-extended. -/
def timeoutField (w : Word) : Nat := (w.extractLsb' 0 24).toNat

/-- The operand w[15:0] of formats FI (the index) and FX (the count), zero-extended. -/
def halfField (w : Word) : Nat := (w.extractLsb' 0 16).toNat

/-- The tag operand w[23:16] of format FX. -/
def tagField (w : Word) : Byte := w.extractLsb' 16 8

/-- `FORMAT[op]`, the table of rule R91. -/
def formatOf (op : Nat) : Format :=
  match op with
  | 0x1 => .fb
  | 0x3 => .ft
  | 0xA => .fi
  | 0xC => .fx
  | 0xD => .fb
  | _ => .fn

/-- The reserved bits of a word under a format (rule R92), as a number: FN w[27:0], FB w[27:8],
FT w[27:24], FI w[27:16], FX w[27:24]. -/
def reservedField (f : Format) (w : Word) : Nat :=
  match f with
  | .fn => (w.extractLsb' 0 28).toNat
  | .fb => (w.extractLsb' 8 20).toNat
  | .ft => (w.extractLsb' 24 4).toNat
  | .fi => (w.extractLsb' 16 12).toNat
  | .fx => (w.extractLsb' 24 4).toNat

/-- `MNEMONIC[op]` with its operands (rules R91 and R92). The opcode field has four bits, so the
last case is 0xF. -/
def commandOf (op : Nat) (w : Word) : Instr :=
  match op with
  | 0x0 => .nop
  | 0x1 => .rxByte (byteField w)
  | 0x2 => .rxPoll
  | 0x3 => .rxWait (timeoutField w)
  | 0x4 => .rxAck
  | 0x5 => .rdStatus
  | 0x6 => .rdTag
  | 0x7 => .rdDeclen
  | 0x8 => .rdFlen
  | 0x9 => .rdCksum
  | 0xA => .rdBuf (halfField w)
  | 0xB => .viewFor
  | 0xC => .txBegin (tagField w) (halfField w)
  | 0xD => .txData (byteField w)
  | 0xE => .rdTxstat
  | _ => .reset

/-- `decode(w)` of rule R102: a command, or the rejection that rule R93 calls an illegal command. -/
def decodeCommand (w : Word) : Except Reject Instr :=
  if reservedField (formatOf (opcodeField w)) w = 0 then .ok (commandOf (opcodeField w) w)
  else .error (.reservedBits (formatOf (opcodeField w)))

/-- The class of a wire byte by its value (spec/opcode_table.json's WIRE rows; rule R100). -/
def decodeWire (b : Byte) : Instr :=
  if b = startByte then .wireStart
  else if b = escByte then .wireEsc
  else if b = xonByte then .wireXon
  else if b = xoffByte then .wireXoff
  else .wireData b

/-- The decoder: a command word or a wire byte. -/
def decode : Encoded → Except Reject Instr
  | .command w => decodeCommand w
  | .wire b => .ok (decodeWire b)

/-- A format FN word: opcode and 28 zeros (rule R92). -/
def wordFN (op : BitVec 4) : Word := op ++ 0#28

/-- A format FB word: opcode, 20 zeros, the byte (rule R92). -/
def wordFB (op : BitVec 4) (b : Byte) : Word := op ++ 0#20 ++ b

/-- A format FT word: opcode, 4 zeros, the timeout (rule R92). -/
def wordFT (op : BitVec 4) (t : Nat) : Word := op ++ 0#4 ++ BitVec.ofNat 24 t

/-- A format FI word: opcode, 12 zeros, the index (rule R92). -/
def wordFI (op : BitVec 4) (i : Nat) : Word := op ++ 0#12 ++ BitVec.ofNat 16 i

/-- A format FX word: opcode, 4 zeros, the tag, the count (rule R92). -/
def wordFX (op : BitVec 4) (tag : Byte) (n : Nat) : Word := op ++ 0#4 ++ tag ++ BitVec.ofNat 16 n

/-- The encoder: the word or wire byte of a well-formed instruction, from the tables of rules R91
and R92 and the wire bytes of rule R99. -/
def encode : Instr → Encoded
  | .nop => .command (wordFN 0x0#4)
  | .rxByte b => .command (wordFB 0x1#4 b)
  | .rxPoll => .command (wordFN 0x2#4)
  | .rxWait t => .command (wordFT 0x3#4 t)
  | .rxAck => .command (wordFN 0x4#4)
  | .rdStatus => .command (wordFN 0x5#4)
  | .rdTag => .command (wordFN 0x6#4)
  | .rdDeclen => .command (wordFN 0x7#4)
  | .rdFlen => .command (wordFN 0x8#4)
  | .rdCksum => .command (wordFN 0x9#4)
  | .rdBuf i => .command (wordFI 0xA#4 i)
  | .viewFor => .command (wordFN 0xB#4)
  | .txBegin tag n => .command (wordFX 0xC#4 tag n)
  | .txData b => .command (wordFB 0xD#4 b)
  | .rdTxstat => .command (wordFN 0xE#4)
  | .reset => .command (wordFN 0xF#4)
  | .wireStart => .wire startByte
  | .wireEsc => .wire escByte
  | .wireXon => .wire xonByte
  | .wireXoff => .wire xoffByte
  | .wireData b => .wire b

/-- An opcode-table row's bits as what the machine decodes: 8 bits are a wire byte (format WIRE8),
any other size is a command word, its bits above `nbits` zero. -/
def tableUnit (nbits w : Nat) : Encoded :=
  if nbits = 8 then .wire (BitVec.ofNat 8 w) else .command (BitVec.ofNat 32 w)

/-- The instruction the decoder reads from an opcode-table row's bits, none where it rejects. -/
def decodeTableWord (nbits w : Nat) : Option Instr :=
  match decode (tableUnit nbits w) with
  | .ok i => some i
  | .error _ => none

end Sys2Proof
end

