-- ==== Sys2Proof/Config.lean ====
section
/-! DEFINITION. What an implementation fixes (spec/00_scope.md rules R4 to R6) and the free value.

The three parameters are arguments of the whole run (rule R345). `exec` and `step` have no argument
for them, so a `Config` travels in `State` as a field that no step writes; every statement about all
states is therefore a statement about all parameter values. See notes/assumptions/1.md. -/

namespace Sys2Proof

/-- `RESTART_POLICY` of rule R6: what becomes of the start marker that causes UnexpectedRestart. -/
inductive RestartPolicy where
  | resync
  | discard
deriving DecidableEq, Repr

/-- One row of `VIEW_TABLE` (rule R5): a known tag, its view id and its fixed prefix length P. -/
structure ViewEntry where
  tag : Byte
  viewId : Byte
  prefixLen : Nat
deriving DecidableEq, Repr

/-- The implementation parameters. `frameCap` is FRAME_CAP with its bound 0 ≤ FRAME_CAP ≤ 65531
(rule R4) in its type; `viewTable` is VIEW_TABLE (rule R5); `restart` is RESTART_POLICY (rule R6). -/
structure Config where
  frameCap : Fin 65532
  viewTable : List ViewEntry
  restart : RestartPolicy
deriving DecidableEq, Repr

/-- Rule R5: VIEW_TABLE is a partial map (no tag twice), and two different tags never map to the
same view id. -/
def Config.wf (c : Config) : Bool :=
  decide ((c.viewTable.map ViewEntry.tag).Nodup) && decide ((c.viewTable.map ViewEntry.viewId).Nodup)

/-- The instantiation `State.reset` is built with: the suggested FRAME_CAP of rule R4, the default
RESTART_POLICY of rule R6, and no known tag. DESIGN CHOICE (unsafe: the spec leaves the three values
open, a claim about `State.reset` alone may lean on them): notes/assumptions/2.md. -/
def Config.standard : Config :=
  { frameCap := 110, viewTable := [], restart := .resync }

/-- A free value: the response word that spec/44_buffer_dispatch.md rule R256 calls UNSPECIFIED. It
has no body, and is applied to a counter of `State` that advances at each draw, so no proof can see
or relate two of its values. See notes/assumptions/4.md. -/
opaque Config.freeWord : Nat → Word

end Sys2Proof
end

