-- ==== Sys2Proof/Machine/State.lean ====
section
/-! DEFINITION. The state of spec/10_state.md, the stop reasons, and power-on reset
(spec/70_reset_and_hazards.md rule R340). -/

namespace Sys2Proof.Machine

/-- `KIND` of rule R29. The fourth 2-bit code never occurs, so it has no constructor. -/
inductive Kind where
  | none
  | complete
  | failed
deriving DecidableEq, Repr

/-- `Err` of rules R9, R30 and R300. `timeout` is only ever a field of a response word. -/
inductive Err where
  | none
  | checksumFailure
  | frameTooLarge
  | unexpectedRestart
  | timeout
deriving DecidableEq, Repr

/-- The bits of the FAULT register that a command can set (rule R36). -/
inductive FaultBit where
  | illegalCmd
  | txBeginBusy
  | txDataIdle
  | txLenRange
  | bufRange
deriving DecidableEq, Repr

/-- A sink event of rule R9. -/
inductive Event where
  | write (b : Byte)
  | flush
deriving DecidableEq, Repr

/-- One environment step (spec/20_memory.md rule R77): the bytes appended to RXQ, the milliseconds
NOW advances by, and how many events are removed from the front of TXLOG. Any of the three may be
nothing, so one such step stands for any sequence of the rule's moves with no block step between. -/
structure EnvMove where
  arrive : List Byte
  advance : Nat
  drain : Nat
deriving DecidableEq, Repr

/-- What the agents outside the block do, one entry a step, in order: a command that the host issues
(a command word, or a single wire byte as the RX_BYTE that carries it, see notes/assumptions/5.md), or
an environment step (rules R11 and R72). -/
inductive Input where
  | unit (e : Encoded)
  | env (e : EnvMove)
deriving DecidableEq, Repr

/-- An RX_WAIT between two of its iterations (spec/42_decoder.md rule R182): the reading `t0` taken
at its start, its operand `t`, and whether an environment step has lifted the wait (rule R12). -/
structure Wait where
  t0 : Nat
  t : Nat
  lifted : Bool
deriving DecidableEq, Repr

/-- Every piece of state the spec gives the machine, and four fields of the model's own
(`cfg`, `agenda`, `draws`, and the written marks that `buf` holds by listing an index). -/
structure State where
  /-- The parameters of rules R4 to R6; no step writes it (rule R345). -/
  cfg : Config
  /-- POS, rule R20. -/
  pos : Half
  /-- ESC, rule R21. -/
  esc : Bool
  /-- RCK, rule R22. -/
  rck : Byte
  /-- LEN_MSB, rule R23. -/
  lenMsb : Byte
  /-- LEN_LSB, rule R24. -/
  lenLsb : Byte
  /-- TAG, rule R26. -/
  tag : Byte
  /-- RXCK, rule R27. -/
  rxck : Byte
  /-- FLEN, rule R28. -/
  flen : Half
  /-- KIND, rule R29. -/
  kind : Kind
  /-- ERR, rule R30. -/
  err : Err
  /-- BUF, rule R32: the written bytes, by rising index; an index not listed is unwritten. -/
  buf : List Host.Cell
  /-- TX_BUSY, rule R33. -/
  txBusy : Bool
  /-- TX_REM, rule R34. -/
  txRem : Half
  /-- TCK, rule R35. -/
  tck : Byte
  /-- FAULT, rule R36. -/
  fault : BitVec 8
  /-- RXQ, rule R38: next byte first. -/
  rxq : List Byte
  /-- TXLOG, rule R39: oldest event first. -/
  txlog : List Event
  /-- NOW, rule R40. -/
  now : Nat
  /-- The response word of the last command, rule R94; none before the first command completes and
  while RX_WAIT waits. -/
  resp : Option Word
  /-- The RX_WAIT in progress, if one is (rule R182). -/
  wait : Option Wait
  /-- The moves of the host and the environment still to come (rules R11, R72 and R77). -/
  agenda : List Input
  /-- How many free values have been drawn; it feeds `Config.freeWord`. -/
  draws : Nat
deriving DecidableEq, Repr

/-- Why the machine stops with a fault. -/
inductive Fault where
  /-- Raised by `execRdBuf`: RD_BUF of an index that nothing has written since reset. "The model
  still treats the read as a fault outcome" (spec/44_buffer_dispatch.md rule R256). Safe: the
  hardware goes on with an unspecified response, the model stops. -/
  | bufUnwritten (i : Nat)
deriving DecidableEq, Repr

/-- Why the machine gives an instruction no meaning. -/
inductive Refusal where
  /-- Reserved for an arm of `exec` whose instruction has no meaning yet; no arm of this model
  answers it. Safe: the run stops. -/
  | notModelled (mnemonic : String)
deriving DecidableEq, Repr

/-- Power-on reset (rules R45, R340 and R342) with parameters `c`; RXQ and NOW "are the
environment's, and a claim names them". -/
def State.powerOn (c : Config) (rxq : List Byte) (now : Nat) : State :=
  { cfg := c
    pos := 0#16
    esc := false
    rck := 0#8
    lenMsb := 0#8
    lenLsb := 0#8
    tag := 0#8
    rxck := 0#8
    flen := 0#16
    kind := .none
    err := .none
    buf := []
    txBusy := false
    txRem := 0#16
    tck := 0#8
    fault := 0#8
    rxq := rxq
    txlog := []
    now := now
    resp := none
    wait := none
    agenda := []
    draws := 0 }

/-- The machine right after power-on reset, with the standard parameters, an empty RXQ and NOW = 0.
DESIGN CHOICE (unsafe) for the parameters, RXQ, NOW and the model's own fields:
notes/assumptions/2.md and notes/assumptions/3.md. -/
def State.reset : State := State.powerOn Config.standard [] 0

end Sys2Proof.Machine
end

