-- ==== Sys2Proof/Machine/Checksum.lean ====
section
/-! DEFINITION. The two combinational units of spec/41_checksum_stuffing.md: the checksum and the
byte stuffer. -/

namespace Sys2Proof.Machine

/-- Σ of a byte list, an exact natural number. -/
def byteSum : List Byte → Nat
  | [] => 0
  | x :: bs => x.toNat + byteSum bs

/-- `ck_compute` (rule R130). -/
def ckCompute (bs : List Byte) : Byte := BitVec.ofNat 8 (0xFF - byteSum bs % 256)

/-- `ck_verify` (rule R131). -/
def ckVerify (bs : List Byte) (t : Byte) : Bool := (byteSum bs + t.toNat) % 256 == 0xFF

/-- `ck_add` (rule R132): the step of a running accumulator. -/
def ckAdd (acc d : Byte) : Byte := BitVec.ofNat 8 ((acc.toNat + d.toNat) % 256)

/-- `0xFF − acc`: the checksum byte a finished accumulator stands for (rule R132). -/
def ckFinal (acc : Byte) : Byte := BitVec.ofNat 8 (0xFF - acc.toNat)

/-- `is_special` (rule R136). -/
def isSpecial (b : Byte) : Bool :=
  b == startByte || b == escByte || b == xonByte || b == xoffByte

/-- `unesc` (rule R138). -/
def unesc (b : Byte) : Byte := b ^^^ 0x20#8

/-- `stuff` (rule R137). -/
def stuff (b : Byte) : List Byte := if isSpecial b then [escByte, b ^^^ 0x20#8] else [b]

/-- `stuff` applied to each byte of a list, in order. -/
def stuffAll : List Byte → List Byte
  | [] => []
  | x :: bs => stuff x ++ stuffAll bs

end Sys2Proof.Machine
end

