-- ==== Sys2Proof/Machine/Operands.lean ====
section
/-! DEFINITION. The operands and derived values the meanings read: the declared length and the
number of bytes written, the range checks of spec/60_exceptions.md rule R310, the length field of
spec/43_encoder.md rule R221, and the table lookup of spec/44_buffer_dispatch.md rule R257. -/

namespace Sys2Proof.Machine

/-- DECLEN = LEN_MSB:LEN_LSB (rule R25). -/
def declen (s : State) : Half := s.lenMsb ++ s.lenLsb

/-- `written(p)`: p − 4 if p ≥ 4, else 0 (rule R172). -/
def written (p : Nat) : Nat := if p ≥ 4 then p - 4 else 0

/-- The Frame Buffer index a payload byte at POS goes to: POS − 4 (rule R61). -/
def storeIndex (s : State) : Nat := s.pos.toNat - 4

/-- FRAME_CAP as a natural (rule R4). -/
def frameCap (s : State) : Nat := s.cfg.frameCap.val

/-- `zext_32` of a byte register (rule R94). -/
def zextByte (b : Byte) : Word := 0#24 ++ b

/-- `zext_32` of a 16-bit register (rule R94). -/
def zextHalf (h : Half) : Word := 0#16 ++ h

/-- TX_BEGIN's range check: the length field n + 1 must fit in 16 bits (rule R222). -/
def txLenInRange (n : Nat) : Bool := decide (n ≤ 0xFFFE)

/-- The length field L = n + 1 (rule R221). -/
def lengthField (n : Nat) : Half := BitVec.ofNat 16 (n + 1)

/-- L[15:8], sent first (rule R65). -/
def msb (l : Half) : Byte := l.extractLsb' 8 8

/-- L[7:0]. -/
def lsb (l : Half) : Byte := l.extractLsb' 0 8

/-- `VIEW_TABLE[t]`, none where t is unknown (rule R5). -/
def viewLookup : List ViewEntry → Byte → Option ViewEntry
  | [], _ => none
  | e :: es, t => if e.tag = t then some e else viewLookup es t

end Sys2Proof.Machine
end

