-- ==== Sys2Proof/Machine/Flags.lean ====
section
/-! DEFINITION. The derived status bits and the packed response words of spec/30_encoding.md rules
R95 to R98, most significant field first. -/

namespace Sys2Proof.Machine

/-- The 2-bit code of KIND (rule R29). -/
def Kind.code : Kind → BitVec 2
  | .none => 0b00#2
  | .complete => 0b01#2
  | .failed => 0b10#2

/-- The 3-bit code of an error (rule R300). -/
def Err.code : Err → BitVec 3
  | .none => 0#3
  | .checksumFailure => 1#3
  | .frameTooLarge => 2#3
  | .unexpectedRestart => 3#3
  | .timeout => 4#3

/-- The bit number of a fault in FAULT (rule R36). -/
def FaultBit.index : FaultBit → Nat
  | .illegalCmd => 0
  | .txBeginBusy => 1
  | .txDataIdle => 2
  | .txLenRange => 3
  | .bufRange => 4

/-- INFRAME = (POS ≠ 0) (rule R31). -/
def inframe (s : State) : Bool := s.pos != 0#16

/-- The level output rx_event = (KIND ≠ NONE) (rules R41 and R308). -/
def rxEvent (s : State) : Bool := s.kind != .none

/-- The layout of a status word (rule R95). -/
def packStatus (s : State) (kind : BitVec 2) (err : BitVec 3) (accepted : Bool) : Word :=
  s.pos ++ 0#8 ++ BitVec.ofBool accepted ++ BitVec.ofBool s.esc ++ BitVec.ofBool (inframe s)
    ++ err ++ kind

/-- SW: the status word with the register values, and the ACCEPTED bit (rules R95 and R96). -/
def statusWord (s : State) (accepted : Bool) : Word :=
  packStatus s s.kind.code s.err.code accepted

/-- RX_WAIT's timeout response: KIND field 0b10 and ERR field 4, whatever the registers hold
(rule R96). -/
def timeoutWord (s : State) : Word := packStatus s Kind.failed.code Err.timeout.code false

/-- The layout of a view word VW (rule R97). -/
def packView (vkind : BitVec 2) (short : Bool) (viewId : Byte) (varLen : Half) : Word :=
  vkind ++ BitVec.ofBool short ++ 0#5 ++ viewId ++ varLen

/-- TW: the transmit-status word (rule R98). -/
def txWord (s : State) : Word :=
  s.txRem ++ s.fault ++ 0#7 ++ BitVec.ofBool s.txBusy

/-- The view word of a COMPLETE frame whose tag has the table entry `e` (rules R257 and R259). -/
def viewWord (s : State) (e : ViewEntry) : Word :=
  packView 0b10#2 (decide (s.flen.toNat < e.prefixLen)) e.viewId
    (BitVec.ofNat 16 (if s.flen.toNat ≥ e.prefixLen then s.flen.toNat - e.prefixLen else 0))

end Sys2Proof.Machine
end

