-- ==== Sys2Proof/Machine/Ops.lean ====
section
/-! DEFINITION. The named operations the meanings share: the Frame Buffer, the two byte streams,
the response port, the entry to a fault and to a frame error and the return from one
(spec/60_exceptions.md rules R311 to R313), and the environment's step. -/

namespace Sys2Proof.Machine

/-- `MemRead(i, 1)` of the Frame Buffer (rule R62): the byte last written at index i, none where
nothing has been written since reset. -/
def bufRead : List Host.Cell → Nat → Option Byte
  | [], _ => none
  | c :: m, i => if c.1 = i then some c.2 else bufRead m i

/-- `MemWrite(i, 1, v)` of the Frame Buffer (rule R61), keeping the indices strictly rising. -/
def bufWrite : List Host.Cell → Nat → Byte → List Host.Cell
  | [], i, v => [(i, v)]
  | c :: m, i, v =>
    if i < c.1 then (i, v) :: c :: m
    else if i = c.1 then (i, v) :: m
    else c :: bufWrite m i v

/-- The canonical form of the Frame Buffer: its indices rise strictly. No entry can equal what an
unlisted index reads as, since that is no value at all (rule R342). -/
def Memory.wf : List Host.Cell → Bool
  | [] => true
  | c :: m => m.all (fun d => decide (c.1 < d.1)) && Memory.wf m

/-- The command ends with response word `w`: `return w` of rule R10. -/
def respond (w : Word) (s : State) : State := { s with resp := some w }

/-- `available()` (rule R63). -/
def available (s : State) : Bool := !s.rxq.isEmpty

/-- `write_byte` for each byte of a list, in order (rule R64). -/
def emit (bs : List Byte) (s : State) : State :=
  { s with txlog := s.txlog ++ bs.map Event.write }

/-- `flush()` (rule R64). -/
def emitFlush (s : State) : State := { s with txlog := s.txlog ++ [Event.flush] }

/-- Entry to a fault, `raise Fault(F)`: the FAULT bit is set and nothing else changes (rules R307
and R312). -/
def raiseFault (f : FaultBit) (s : State) : State :=
  { s with fault := s.fault ||| BitVec.twoPow 8 f.index }

/-- An illegal command word: FAULT[0] is set, the response is 0, and nothing else changes
(rule R306). -/
def illegalCommand (s : State) : State := respond 0#32 (raiseFault .illegalCmd s)

/-- The session reset of POS, RCK and ESC (rules R172, R182). -/
def resetSession (s : State) : State := { s with pos := 0#16, rck := 0#8, esc := false }

/-- `finish(k, e)`: a terminal event, the entry to a frame error or to COMPLETE (rules R172
and R311). -/
def finish (k : Kind) (e : Err) (s : State) : State :=
  resetSession
    { s with flen := BitVec.ofNat 16 (written s.pos.toNat), kind := k, err := e }

/-- `release()`: the return from a terminal event (rules R183 and R313). -/
def release (s : State) : State :=
  if s.kind ≠ .none then { s with kind := .none, err := .none } else s

/-- The host's reset (rule R341): rule R340 applied to every register except FAULT; every BUF byte
becomes unwritten; RXQ, TXLOG and NOW are not touched. -/
def resetBlock (s : State) : State :=
  { State.powerOn s.cfg s.rxq s.now with
    fault := s.fault
    txlog := s.txlog
    agenda := s.agenda
    draws := s.draws }

/-- The command ends with an UNSPECIFIED response word (rule R256): a fresh free value. -/
def respondFree (s : State) : State :=
  { s with resp := some (Config.freeWord s.draws), draws := s.draws + 1 }

/-- One environment step (rule R77). -/
def applyEnv (e : EnvMove) (s : State) : State :=
  { s with
    rxq := s.rxq ++ e.arrive
    now := s.now + e.advance
    txlog := s.txlog.drop e.drain }

end Sys2Proof.Machine
end

