-- ==== Sys2Proof/Machine/Decoder.lean ====
section
/-! DEFINITION. The frame decoder of spec/42_decoder.md: the per-byte step, and the commands that
drive it. -/

namespace Sys2Proof.Machine

/-- At POS = 0, awaiting start (rule R161). -/
def stepIdle (b : Byte) (s : State) : State :=
  if b = startByte then { s with pos := 1#16, rck := 0#8, esc := false } else s

/-- A raw start marker at POS > 0 (rule R162). -/
def stepRestart (s : State) : State :=
  match s.cfg.restart with
  | .resync => { finish .failed .unexpectedRestart s with pos := 1#16 }
  | .discard => finish .failed .unexpectedRestart s

/-- An escape marker at POS > 0 with ESC = 0 (rule R163). -/
def stepEscape (s : State) : State := { s with esc := true }

/-- Checksum accumulation at POS ≥ 3 (rule R165). -/
def accumulate (d : Byte) (s : State) : State :=
  if 3 ≤ s.pos.toNat then { s with rck := ckAdd s.rck d } else s

/-- At POS = 1 (rule R166). -/
def stepLenMsb (d : Byte) (s : State) : State := { s with lenMsb := d, pos := 2#16 }

/-- At POS = 2 (rule R167). -/
def stepLenLsb (d : Byte) (s : State) : State := { s with lenLsb := d, pos := 3#16 }

/-- At POS = 3 (rule R168). -/
def stepTag (d : Byte) (s : State) : State := { s with tag := d, pos := 4#16 }

/-- At the checksum position POS = DECLEN + 3 ≥ 4 (rule R169). -/
def stepChecksum (d : Byte) (s : State) : State :=
  if s.rck = 0xFF#8 then finish .complete .none { s with rxck := d }
  else finish .failed .checksumFailure { s with rxck := d }

/-- The buffer is full before the checksum position (rule R170). -/
def stepOversize (s : State) : State := finish .failed .frameTooLarge s

/-- One payload byte (rule R171). -/
def stepStore (d : Byte) (s : State) : State :=
  { s with buf := bufWrite s.buf (storeIndex s) d, pos := s.pos + 1#16 }

/-- The dispatch of an unstuffed byte on POS, after accumulation (rule R160's last six lines). The
comparisons are exact natural arithmetic. -/
def dispatchByte (d : Byte) (s : State) : State :=
  if s.pos = 1#16 then stepLenMsb d s
  else if s.pos = 2#16 then stepLenLsb d s
  else if s.pos = 3#16 then stepTag d s
  else if s.pos.toNat = (declen s).toNat + 3 then stepChecksum d s
  else if s.pos.toNat - 4 ≥ frameCap s then stepOversize s
  else stepStore d s

/-- The frame byte d that a raw byte stands for, with ESC as it is (rule R164). -/
def unstuffed (b : Byte) (s : State) : Byte := if s.esc then unesc b else b

/-- `ESC <- 0`, once the frame byte is unstuffed (rule R164). -/
def clearEsc (s : State) : State := { s with esc := false }

/-- `rx_step(b)`: the decoder's response to one raw wire byte (rule R160), with the unescaping of
rule R164. It is called only while KIND = NONE. -/
def rxStep (b : Byte) (s : State) : State :=
  if s.pos = 0#16 then stepIdle b s
  else if b = startByte then stepRestart s
  else if s.esc = false ∧ b = escByte then stepEscape s
  else dispatchByte (unstuffed b s) (accumulate (unstuffed b s) (clearEsc s))

/-- `while KIND = NONE and available(): rx_step(read_byte())`, over the bytes of RXQ: each turn
takes the head off RXQ (rule R63). -/
def pollBytes : List Byte → State → State
  | [], s => s
  | b :: q, s => if s.kind = .none then pollBytes q (rxStep b { s with rxq := q }) else s

/-- The decoding loop over RXQ as it stands (rules R72 and R181). -/
def pollBody (s : State) : State := pollBytes s.rxq s

/-- The state in which an RX_WAIT with start reading `w.t0` and timeout `w.t` stands after one of
its atomic iterations (rule R182): ended by a result, ended by Timeout, or waiting. -/
def waitIterate (w : Wait) (s : State) : State :=
  let p := pollBody s
  if p.kind ≠ .none then { respond (statusWord p false) p with wait := none }
  else if p.now - w.t0 ≥ w.t then
    { respond (timeoutWord (resetSession p)) (resetSession p) with wait := none }
  else { p with wait := some { w with lifted := false }, resp := none }

/-- The host gives the block one byte: while a result is held it is refused, otherwise `rx_step`
runs on it; the response is SW with ACCEPTED accordingly (rule R180). -/
def giveByte (b : Byte) (s : State) : State :=
  if s.kind ≠ .none then respond (statusWord s false) s
  else respond (statusWord (rxStep b s) true) (rxStep b s)

/-- RX_BYTE (rule R180). -/
def execRxByte (b : Byte) (s : State) : Host.Outcome State Fault Refusal := .next (giveByte b s)

/-- RX_POLL (rule R181). -/
def execRxPoll (s : State) : Host.Outcome State Fault Refusal :=
  .next (respond (statusWord (pollBody (release s)) false) (pollBody (release s)))

/-- RX_WAIT (rule R182): the reading of the clock, the release and the first iteration. The later
iterations are steps of their own (rule R68). -/
def execRxWait (t : Nat) (s : State) : Host.Outcome State Fault Refusal :=
  .next (waitIterate { t0 := s.now, t := t, lifted := false } (release s))

/-- RX_ACK (rule R183). -/
def execRxAck (s : State) : Host.Outcome State Fault Refusal :=
  .next (respond (statusWord (release s) false) (release s))

end Sys2Proof.Machine
end

