-- ==== Sys2Proof/Machine/Encoder.lean ====
section
/-! DEFINITION. The frame encoder of spec/43_encoder.md: the commands, and the wire sequence they
must produce (rule R220), which no meaning calls. -/

namespace Sys2Proof.Machine

/-- The unstuffed frame bytes after the start marker: length MSB, length LSB, tag, payload,
checksum (rules R99 and R220). -/
def frameBody (tag : Byte) (p : List Byte) : List Byte :=
  [msb (lengthField p.length), lsb (lengthField p.length), tag] ++ p ++ [ckCompute (tag :: p)]

/-- The wire bytes of a frame: the raw start marker, then every other byte stuffed (rule R99). -/
def frameWire (tag : Byte) (p : List Byte) : List Byte := startByte :: stuffAll (frameBody tag p)

/-- `encode_frame(tag, p)` (rule R220). -/
def encodeFrame (tag : Byte) (p : List Byte) : List Event :=
  (frameWire tag p).map Event.write ++ [Event.flush]

/-- The header TX_BEGIN writes: the start marker, then the stuffed length and tag (rule R222). -/
def headerWire (tag : Byte) (n : Nat) : List Byte :=
  startByte :: (stuff (msb (lengthField n)) ++ stuff (lsb (lengthField n)) ++ stuff tag)

/-- The end of a frame: the stuffed checksum 0xFF − TCK, then the flush (rules R222, R223, R226). -/
def closeFrame (s : State) : State := emitFlush (emit (stuff (ckFinal s.tck)) s)

/-- The effect of a TX_BEGIN that no check stops (rule R222). -/
def beginFrame (tag : Byte) (n : Nat) (s : State) : State :=
  let h := { emit (headerWire tag n) s with tck := tag }
  if n = 0 then closeFrame h else { h with txBusy := true, txRem := BitVec.ofNat 16 n }

/-- The effect of a TX_DATA in an open frame (rule R223). -/
def dataByte (b : Byte) (s : State) : State :=
  let d := { emit (stuff b) s with tck := ckAdd s.tck b, txRem := s.txRem - 1#16 }
  if d.txRem = 0#16 then { closeFrame d with txBusy := false } else d

/-- A TX command ends with the transmit-status word of the state after its effect (rule R98). -/
def respondTx (s : State) : State := respond (txWord s) s

/-- TX_BEGIN (rule R222), its checks in the order of rule R310. -/
def execTxBegin (tag : Byte) (n : Nat) (s : State) : Host.Outcome State Fault Refusal :=
  if s.txBusy then .next (respondTx (raiseFault .txBeginBusy s))
  else if txLenInRange n = false then .next (respondTx (raiseFault .txLenRange s))
  else .next (respondTx (beginFrame tag n s))

/-- TX_DATA (rule R223). -/
def execTxData (b : Byte) (s : State) : Host.Outcome State Fault Refusal :=
  if s.txBusy = false then .next (respondTx (raiseFault .txDataIdle s))
  else .next (respondTx (dataByte b s))

/-- RD_TXSTAT (rule R225). -/
def execRdTxstat (s : State) : Host.Outcome State Fault Refusal := .next (respond (txWord s) s)

end Sys2Proof.Machine
end

