-- ==== Sys2Proof/Machine/Reads.lean ====
section
/-! DEFINITION. NOP, the register and buffer reads and the type dispatch of
spec/44_buffer_dispatch.md. -/

namespace Sys2Proof.Machine

/-- NOP (rule R250). -/
def execNop (s : State) : Host.Outcome State Fault Refusal := .next (respond 0#32 s)

/-- RD_STATUS (rule R251): SW with ACCEPTED = 0. -/
def execRdStatus (s : State) : Host.Outcome State Fault Refusal :=
  .next (respond (statusWord s false) s)

/-- RD_TAG (rule R252). -/
def execRdTag (s : State) : Host.Outcome State Fault Refusal := .next (respond (zextByte s.tag) s)

/-- RD_DECLEN (rule R253). -/
def execRdDeclen (s : State) : Host.Outcome State Fault Refusal :=
  .next (respond (zextHalf (declen s)) s)

/-- RD_FLEN (rule R254). -/
def execRdFlen (s : State) : Host.Outcome State Fault Refusal :=
  .next (respond (zextHalf s.flen) s)

/-- RD_CKSUM (rule R255). -/
def execRdCksum (s : State) : Host.Outcome State Fault Refusal :=
  .next (respond (zextByte s.rxck) s)

/-- RD_BUF (rule R256): out of range, BUF_RANGE and an unspecified response; a written byte, that
byte; a byte nothing has written since reset, the fault outcome of rule R12. -/
def execRdBuf (i : Nat) (s : State) : Host.Outcome State Fault Refusal :=
  if i ≥ frameCap s then .next (respondFree (raiseFault .bufRange s))
  else
    match bufRead s.buf i with
    | some v => .next (respond (zextByte v) s)
    | none => .fault (.bufUnwritten i)

/-- The response of VIEW_FOR (rule R257): NOFRAME, UNRECOGNIZED or VIEW. -/
def viewResponse (s : State) : Word :=
  if s.kind ≠ .complete then 0x00000000#32
  else
    match viewLookup s.cfg.viewTable s.tag with
    | none => 0x40000000#32
    | some e => viewWord s e

/-- VIEW_FOR (rule R257). -/
def execViewFor (s : State) : Host.Outcome State Fault Refusal := .next (respond (viewResponse s) s)

end Sys2Proof.Machine
end

