-- ==== Sys2Proof/Machine/System.lean ====
section
/-! DEFINITION. The host's reset command (spec/70_reset_and_hazards.md rule R341). -/

namespace Sys2Proof.Machine

/-- RESET (rule R341). -/
def execReset (s : State) : Host.Outcome State Fault Refusal := .next (respond 0#32 (resetBlock s))

end Sys2Proof.Machine
end

