-- ==== Sys2Proof/Machine/Wire.lean ====
section
/-! DEFINITION. The wire-byte rows of spec/opcode_table.json. The decoder acts only inside host
commands (spec/00_scope.md rule R11), and the one command that carries a single wire byte is RX_BYTE:
a wire row given to the port is the host's RX_BYTE of that byte, with RX_BYTE's response. See
notes/assumptions/5.md. -/

namespace Sys2Proof.Machine

/-- WIRE_START: begins a frame at POS 0, UnexpectedRestart at POS > 0 (rules R161 and R162). -/
def execWireStart (s : State) : Host.Outcome State Fault Refusal := .next (giveByte startByte s)

/-- WIRE_ESC: noise at POS 0, escape marker or escaped data at POS > 0 (rules R161, R163, R164). -/
def execWireEsc (s : State) : Host.Outcome State Fault Refusal := .next (giveByte escByte s)

/-- WIRE_XON: noise at POS 0, data at POS > 0 (rule R100). -/
def execWireXon (s : State) : Host.Outcome State Fault Refusal := .next (giveByte xonByte s)

/-- WIRE_XOFF: noise at POS 0, data at POS > 0 (rule R100). -/
def execWireXoff (s : State) : Host.Outcome State Fault Refusal := .next (giveByte xoffByte s)

/-- WIRE_DATA: noise at POS 0, data at POS > 0 (rule R100). -/
def execWireData (b : Byte) (s : State) : Host.Outcome State Fault Refusal := .next (giveByte b s)

end Sys2Proof.Machine
end

