-- ==== Sys2Proof/Machine/Dispatch.lean ====
section
/-! DEFINITION. One arm per constructor of `Instr`. -/

namespace Sys2Proof.Machine

def exec (i : Instr) (s : State) : Host.Outcome State Fault Refusal :=
  match i with
  | .nop => Sys2Proof.Machine.execNop s
  | .rxByte b => Sys2Proof.Machine.execRxByte b s
  | .rxPoll => Sys2Proof.Machine.execRxPoll s
  | .rxWait t => Sys2Proof.Machine.execRxWait t s
  | .rxAck => Sys2Proof.Machine.execRxAck s
  | .rdStatus => Sys2Proof.Machine.execRdStatus s
  | .rdTag => Sys2Proof.Machine.execRdTag s
  | .rdDeclen => Sys2Proof.Machine.execRdDeclen s
  | .rdFlen => Sys2Proof.Machine.execRdFlen s
  | .rdCksum => Sys2Proof.Machine.execRdCksum s
  | .rdBuf idx => Sys2Proof.Machine.execRdBuf idx s
  | .viewFor => Sys2Proof.Machine.execViewFor s
  | .txBegin tag n => Sys2Proof.Machine.execTxBegin tag n s
  | .txData b => Sys2Proof.Machine.execTxData b s
  | .rdTxstat => Sys2Proof.Machine.execRdTxstat s
  | .reset => Sys2Proof.Machine.execReset s
  | .wireStart => Sys2Proof.Machine.execWireStart s
  | .wireEsc => Sys2Proof.Machine.execWireEsc s
  | .wireXon => Sys2Proof.Machine.execWireXon s
  | .wireXoff => Sys2Proof.Machine.execWireXoff s
  | .wireData b => Sys2Proof.Machine.execWireData b s

end Sys2Proof.Machine
end

