-- ==== Sys2Proof/Machine/Turn.lean ====
section
/-! DEFINITION. What the machine's next step is, as data: the result of looking at the RX_WAIT in
progress and at the agenda. -/

namespace Sys2Proof.Machine

/-- The next step of the machine. -/
inductive Turn where
  /-- No agent has a move: the block is idle, or RX_WAIT waits and nothing has lifted the wait
  (rule R12). -/
  | idle
  /-- An environment step (rule R77). -/
  | environment (e : EnvMove) (s : State)
  /-- The next atomic iteration of an RX_WAIT (rule R182). -/
  | iterate (w : Wait) (s : State)
  /-- A decoded instruction. -/
  | run (i : Instr) (s : State)
  /-- An illegal command word (rule R93). -/
  | illegal (s : State)
deriving DecidableEq, Repr

end Sys2Proof.Machine
end

