-- ==== Sys2Proof/Machine/Port.lean ====
section
/-! DEFINITION. The command port: which agent moves next, taking a command word off the port, and
the end of an environment step (spec/00_scope.md rules R11 and R12, spec/20_memory.md rules R72
and R77). -/

namespace Sys2Proof.Machine

/-- The host gives one unit to the port (rule R11): a command word or, for a single wire byte, the
RX_BYTE that carries it (notes/assumptions/5.md). It is a decoded instruction, or an illegal command
word (rule R93). -/
def takeUnit (e : Encoded) (s : State) : Turn :=
  match decode e with
  | .ok i => .run i s
  | .error _ => .illegal s

/-- Which step comes next. While an RX_WAIT is in progress only the environment moves, and after
each of its moves the RX_WAIT runs one iteration (rules R68 and R182); otherwise the agenda's head
does. A host command waits while an RX_WAIT is in progress: the host issues one command at a time
(rule R11). -/
def turn (s : State) : Turn :=
  match s.wait, s.agenda with
  | none, [] => .idle
  | none, .env e :: rest => .environment e { s with agenda := rest }
  | none, .unit e :: rest => takeUnit e { s with agenda := rest }
  | some w, agenda =>
    if w.lifted then .iterate w s
    else
      match agenda with
      | .env e :: rest => .environment e { s with agenda := rest }
      | _ => .idle

/-- An environment step lifts the wait of an RX_WAIT in progress (rule R12). -/
def liftWait (s : State) : State :=
  { s with wait := s.wait.map (fun w => { w with lifted := true }) }

end Sys2Proof.Machine
end

