-- ==== Sys2Proof/Machine/Step.lean ====
section
/-! DEFINITION. One step of the machine, and how a host places an instruction before it. -/

namespace Sys2Proof.Machine

/-- One step: the environment's move, an iteration of the RX_WAIT in progress, or the next command.
Where no agent has a move, nothing changes (the wait outcome of rule R12). -/
def step (s : State) : Host.Outcome State Fault Refusal :=
  match turn s with
  | .idle => .next s
  | .environment e t => .next (liftWait (applyEnv e t))
  | .iterate w t => .next (waitIterate w t)
  | .run i t => exec i t
  | .illegal t => .next (illegalCommand t)

/-- `s` with the instruction of an opcode-table row on the port as the very next move. The port is
free only when no RX_WAIT is in progress. -/
def State.withFetchWord (s : State) (nbits w : Nat) : State :=
  { s with wait := none, agenda := .unit (tableUnit nbits w) :: s.agenda }

end Sys2Proof.Machine
end

