-- ==== Sys2Proof/Safety.lean ====
section
/-! DEFINITION. What counts as a safe run, in the terms statements use: runs that no fault refutes
(spec/60_exceptions.md rule R307), the invariants of a reachable state (spec/42_decoder.md rules
R190, R191, R192 and R198, spec/43_encoder.md rule R230), and how a sequence of commands or of
deliveries is fed to the machine. -/

namespace Sys2Proof.Machine

/-- A run that no programmer error refutes: every claim about a program's result "takes
FAULT = 0 at the end as a premise" (rule R307). -/
abbrev Unfaulted (s : State) : Prop := s.fault = 0#8

/-- The state RX_BYTE ends in once its byte has been accepted and has led to `t`: the response is
the status word of `t` with ACCEPTED = 1 (rule R180). -/
def accepted (t : State) : State := { t with resp := some (statusWord t true) }

/-- The commands of a list, one after the other, stopping at the first stop (rule R72). -/
def runAll : List Instr → State → Host.Outcome State Fault Refusal
  | [], s => .next s
  | i :: is, s =>
    match exec i s with
    | .next t => runAll is t
    | .fault r => .fault r
    | .refused r => .refused r

/-- `k` steps of the machine, stopping at the first stop. -/
def runSteps : Nat → State → Host.Outcome State Fault Refusal
  | 0, s => .next s
  | k + 1, s =>
    match step s with
    | .next t => runSteps k t
    | .fault r => .fault r
    | .refused r => .refused r

/-- One RX_POLL for each delivery of bytes, each "called after its bytes are in RXQ" (rule R193). -/
def pollChunks : List (List Byte) → State → Host.Outcome State Fault Refusal
  | [], s => .next s
  | c :: cs, s =>
    match exec .rxPoll { s with rxq := s.rxq ++ c } with
    | .next t => pollChunks cs t
    | .fault r => .fault r
    | .refused r => .refused r

/-- The Frame Buffer holds the bytes `p` at indices 0 .. len(p) − 1. -/
def HoldsPayload (m : List Host.Cell) (p : List Byte) : Prop :=
  ∀ i, i < p.length → bufRead m i = p[i]?

/-- Rule R190, clauses (a) to (d). -/
structure SessionInv (s : State) : Prop where
  idle : s.kind = .none → s.pos = 0#16 → s.esc = false ∧ s.rck = 0#8
  header : s.kind = .none → s.pos = 1#16 ∨ s.pos = 2#16 ∨ s.pos = 3#16 → s.rck = 0#8
  held : s.kind ≠ .none → s.esc = false ∧ s.rck = 0#8 ∧
    (s.pos = 0#16 ∨ (s.pos = 1#16 ∧ s.err = .unexpectedRestart ∧ s.cfg.restart = .resync))
  error : s.err = .none ↔ s.kind ≠ .failed

/-- Rule R30: the ERR register never holds the Timeout code. -/
abbrev NoTimeoutHeld (s : State) : Prop := s.err ≠ .timeout

/-- Rule R198: the bounds on POS, on FLEN and on the indices of BUF ever written. -/
structure BoundsInv (s : State) : Prop where
  pos : s.pos.toNat ≤ frameCap s + 4
  flen : s.flen.toNat ≤ frameCap s
  buf : ∀ i, (bufRead s.buf i).isSome → i < frameCap s

/-- A frame is past its tag with the payload `p` so far: POS = len(p) + 4, BUF[0 .. POS − 5] = p and
RCK is the sum mod 256 of the tag and `p` (rule R191). -/
structure CurrentFrame (s : State) (p : List Byte) : Prop where
  pos : s.pos.toNat = p.length + 4
  buf : HoldsPayload s.buf p
  rck : s.rck.toNat = byteSum (s.tag :: p) % 256

/-- Rule R191: while a frame is past its tag, BUF holds the payload so far and RCK is the sum
mod 256 of the tag and that payload. -/
def AccumInv (s : State) : Prop := s.kind = .none → 4 ≤ s.pos.toNat → ∃ p, CurrentFrame s p

/-- Rule R192: what a COMPLETE frame is. -/
def CompleteInv (s : State) : Prop :=
  s.kind = .complete →
    1 ≤ (declen s).toNat ∧ s.flen.toNat = (declen s).toNat - 1 ∧ s.flen.toNat ≤ frameCap s ∧
      ∃ p, p.length = s.flen.toNat ∧ HoldsPayload s.buf p ∧ s.rxck = ckCompute (s.tag :: p)

/-- Rule R230 on the registers TX_BUSY and TX_REM. -/
structure TxInv (s : State) : Prop where
  idle : s.txBusy = false ↔ s.txRem = 0#16
  range : s.txBusy = true → 1 ≤ s.txRem.toNat ∧ s.txRem.toNat ≤ 0xFFFE

/-- Rule R36: FAULT[7:5] are always 0. -/
abbrev FaultReserved (s : State) : Prop := s.fault.toNat < 32

/-- An RX_WAIT in progress holds no result: it returns as soon as KIND ≠ NONE (rule R182). -/
abbrev WaitInv (s : State) : Prop := s.wait ≠ none → s.kind = .none

/-- The states a run with parameters `c` can be in: power-on reset with any RXQ, clock and agenda,
then steps (rules R11, R340 and R345). -/
inductive Reachable (c : Config) : State → Prop where
  | start (rxq : List Byte) (now : Nat) (agenda : List Input) :
      Reachable c { State.powerOn c rxq now with agenda := agenda }
  | step {s t : State} : Reachable c s → Machine.step s = .next t → Reachable c t

end Sys2Proof.Machine
end

