-- ==== Sys2Proof/Certificates/Slice0/Obligations.lean ====
section
/-! DEFINITION. The statements for the provers, in the order of OBLIGATIONS.json. -/

open Sys2Proof Sys2Proof.Machine

/-- No bit of an encoding is dropped: decode inverts encode on every well-formed instruction (spec/30_encoding.md sections 1 and 4). -/
def Obligations.DecodeOfEncodeIsInstr : Prop :=
  ∀ i : Instr, i.wf = true → decode (encode i) = .ok i

/-- Each word has one meaning: encode inverts decode on everything the decoder accepts (spec/30_encoding.md section 1). -/
def Obligations.EncodeOfDecodeIsUnit : Prop :=
  ∀ (e : Encoded) (i : Instr), decode e = .ok i → i.wf = true ∧ encode i = e

/-- Rules R93 and R306: which words are illegal, by the numeric value of each reserved field, and all that an illegal word does. -/
def Obligations.IllegalWordsSetOnlyFaultBit0 : Prop :=
  ∀ w : Word,
    ((∃ r, decode (.command w) = .error r) ↔
      (w.toNat / 2 ^ 28 ∈ [0x0, 0x2, 0x4, 0x5, 0x6, 0x7, 0x8, 0x9, 0xB, 0xE, 0xF] ∧
        w.toNat % 2 ^ 28 ≠ 0) ∨
      (w.toNat / 2 ^ 28 ∈ [0x1, 0xD] ∧ w.toNat / 2 ^ 8 % 2 ^ 20 ≠ 0) ∨
      (w.toNat / 2 ^ 28 = 0x3 ∧ w.toNat / 2 ^ 24 % 2 ^ 4 ≠ 0) ∨
      (w.toNat / 2 ^ 28 = 0xA ∧ w.toNat / 2 ^ 16 % 2 ^ 12 ≠ 0) ∨
      (w.toNat / 2 ^ 28 = 0xC ∧ w.toNat / 2 ^ 24 % 2 ^ 4 ≠ 0)) ∧
    ∀ (s : State) (rest : List Input) (r : Reject),
      s.wait = none → s.agenda = .unit (.command w) :: rest → decode (.command w) = .error r →
        step s = .next { s with agenda := rest, fault := s.fault ||| 1#8, resp := some 0#32 }

/-- A sanity statement on closed words: the vectors of spec/95_test_vectors.md section 2.1 and the wire bytes of rule R99. -/
def Obligations.SpecWordsDecode : Prop :=
  decode (.command 0b0000_0000000000000000000000000000#32) = .ok .nop ∧
  decode (.command 0b0001_00000000000000000000_11111111#32) = .ok (.rxByte 0xFF#8) ∧
  decode (.command 0b0011_0000_111111111111111111111111#32) = .ok (.rxWait 16777215) ∧
  decode (.command 0b1010_000000000000_1111111111111111#32) = .ok (.rdBuf 65535) ∧
  decode (.command 0b1100_0000_11111111_0000000000000000#32) = .ok (.txBegin 0xFF#8 0) ∧
  decode (.command 0b1100_0000_00001000_0000000000000010#32) = .ok (.txBegin 0x08#8 2) ∧
  decode (.command 0b1101_00000000000000000000_01000001#32) = .ok (.txData 0x41#8) ∧
  decode (.command 0b1111_0000000000000000000000000000#32) = .ok .reset ∧
  decode (.command 0x00000001#32) = .error (.reservedBits .fn) ∧
  decode (.command 0x10000100#32) = .error (.reservedBits .fb) ∧
  decode (.command 0x31000000#32) = .error (.reservedBits .ft) ∧
  decode (.command 0xA0010000#32) = .error (.reservedBits .fi) ∧
  decode (.command 0xC1000000#32) = .error (.reservedBits .fx) ∧
  decode (.wire 0x7E#8) = .ok .wireStart ∧
  decode (.wire 0x7D#8) = .ok .wireEsc ∧
  decode (.wire 0x11#8) = .ok .wireXon ∧
  decode (.wire 0x13#8) = .ok .wireXoff ∧
  decode (.wire 0x5E#8) = .ok (.wireData 0x5E#8)

/-- The agenda is the model's own (notes/assumptions/3.md): commands take effect one at a time, in the order the host issues them (spec/20_memory.md section 6). -/
def Obligations.StepRunsDecoded : Prop :=
  ∀ (s : State) (e : Encoded) (i : Instr) (rest : List Input),
    s.wait = none → s.agenda = .unit e :: rest → decode e = .ok i →
      step s = exec i { s with agenda := rest }

/-- The environment's liberties (spec/20_memory.md section 6) and the wait outcome (spec/00_scope.md section 4). The agenda and the lifted mark are the model's own: notes/assumptions/3.md and 6.md. -/
def Obligations.EnvironmentActsOnlyOnItsOwnState : Prop :=
  (∀ (s : State) (e : EnvMove) (rest : List Input),
    s.agenda = .env e :: rest → (∀ w, s.wait = some w → w.lifted = false) →
      step s = .next { s with
        agenda := rest
        rxq := s.rxq ++ e.arrive
        now := s.now + e.advance
        txlog := s.txlog.drop e.drain
        wait := s.wait.map (fun w => { w with lifted := true }) }) ∧
  (∀ s : State, s.wait = none → s.agenda = [] → step s = .next s) ∧
  (∀ (s : State) (w : Wait), s.wait = some w → w.lifted = false →
    (∀ e rest, s.agenda ≠ .env e :: rest) → step s = .next s)

/-- Rule R133. -/
def Obligations.CkVerifyIffComputed : Prop :=
  ∀ (bs : List Byte) (t : Byte), ckVerify bs t = true ↔ t = ckCompute bs

/-- Rule R132. -/
def Obligations.RunningAccumulatorIsExact : Prop :=
  (∀ acc d : Byte, (ckAdd acc d).toNat = (acc.toNat + d.toNat) % 256) ∧
  ∀ (bs : List Byte) (t : Byte),
    (bs.foldl ckAdd 0#8).toNat = byteSum bs % 256 ∧
    (ckCompute bs).toNat = 0xFF - (bs.foldl ckAdd 0#8).toNat ∧
    (ckVerify bs t = true ↔ ckAdd (bs.foldl ckAdd 0#8) t = 0xFF#8)

/-- Rule R134. -/
def Obligations.ChecksumIsComplementOfSum : Prop :=
  (∀ x : Byte, BitVec.ofNat 8 (0xFF - x.toNat) = ~~~x) ∧
  ∀ bs : List Byte, ckCompute bs = ~~~(BitVec.ofNat 8 (byteSum bs % 256))

/-- Rule R139, clauses (a) to (d). -/
def Obligations.StuffedFramesHoldNoMarkerInside : Prop :=
  (∀ b : Byte, 0x7E#8 ∉ stuff b ∧ 0x11#8 ∉ stuff b ∧ 0x13#8 ∉ stuff b) ∧
  (∀ b x y : Byte, stuff b = [x, y] → x = 0x7D#8 ∧ isSpecial y = false) ∧
  (∀ b : Byte, unesc (b ^^^ 0x20#8) = b) ∧
  ∀ (tag : Byte) (p : List Byte) (i : Nat), (frameWire tag p)[i]? = some 0x7E#8 ↔ i = 0

/-- Rule R136, and the table of spec/41_checksum_stuffing.md section 2 for `stuff`. -/
def Obligations.StuffTable : Prop :=
  (∀ b : Byte, isSpecial b = true ↔ b = 0x7E#8 ∨ b = 0x7D#8 ∨ b = 0x11#8 ∨ b = 0x13#8) ∧
  (∀ b : Byte, isSpecial b = true → stuff b = [0x7D#8, b ^^^ 0x20#8]) ∧
  (∀ b : Byte, isSpecial b = false → stuff b = [b]) ∧
  stuff 0x7E#8 = [0x7D#8, 0x5E#8] ∧ stuff 0x7D#8 = [0x7D#8, 0x5D#8] ∧
  stuff 0x11#8 = [0x7D#8, 0x31#8] ∧ stuff 0x13#8 = [0x7D#8, 0x33#8]

/-- Rule R161. -/
def Obligations.IdleByteStartsFrameOrIsNoise : Prop :=
  ∀ (b : Byte) (s : State), s.kind = .none → s.pos = 0#16 →
    exec (.rxByte b) s = .next (accepted
      (if b = 0x7E#8 then { s with pos := 1#16, rck := 0#8, esc := false } else s))

/-- Rules R162 and R303. -/
def Obligations.RestartByteFailsFrame : Prop :=
  ∀ s : State, s.kind = .none → s.pos ≠ 0#16 →
    exec (.rxByte 0x7E#8) s = .next (accepted
      { s with
        kind := .failed
        err := .unexpectedRestart
        flen := BitVec.ofNat 16 (if s.pos.toNat ≥ 4 then s.pos.toNat - 4 else 0)
        esc := false
        rck := 0#8
        pos := if s.cfg.restart = .resync then 1#16 else 0#16 })

/-- Rule R163. -/
def Obligations.EscapeMarkerSetsEscOnly : Prop :=
  ∀ s : State, s.kind = .none → s.pos ≠ 0#16 → s.esc = false →
    exec (.rxByte 0x7D#8) s = .next (accepted { s with esc := true })

/-- Rules R164, R166, R167 and R168. -/
def Obligations.HeaderBytesFillLengthAndTag : Prop :=
  ∀ (b d : Byte) (s : State), s.kind = .none → b ≠ 0x7E#8 → ¬(s.esc = false ∧ b = 0x7D#8) →
    d = (if s.esc then b ^^^ 0x20#8 else b) →
      (s.pos = 1#16 → exec (.rxByte b) s = .next (accepted
        { s with esc := false, lenMsb := d, pos := 2#16 })) ∧
      (s.pos = 2#16 → exec (.rxByte b) s = .next (accepted
        { s with esc := false, lenLsb := d, pos := 3#16 })) ∧
      (s.pos = 3#16 → exec (.rxByte b) s = .next (accepted
        { s with esc := false, rck := s.rck + d, tag := d, pos := 4#16 }))

/-- Rules R169 and R301; the checksum position is tested before the oversize guard, so no bound on the buffer is assumed. -/
def Obligations.ChecksumByteEndsFrame : Prop :=
  ∀ (b d : Byte) (s : State), s.kind = .none → b ≠ 0x7E#8 → ¬(s.esc = false ∧ b = 0x7D#8) →
    d = (if s.esc then b ^^^ 0x20#8 else b) →
      4 ≤ s.pos.toNat → s.pos.toNat = 256 * s.lenMsb.toNat + s.lenLsb.toNat + 3 →
      exec (.rxByte b) s = .next (accepted
        { s with
          rxck := d
          kind := if s.rck + d = 0xFF#8 then .complete else .failed
          err := if s.rck + d = 0xFF#8 then .none else .checksumFailure
          flen := BitVec.ofNat 16 (256 * s.lenMsb.toNat + s.lenLsb.toNat - 1)
          pos := 0#16
          rck := 0#8
          esc := false })

/-- Rule R170. -/
def Obligations.OversizeByteFailsFrame : Prop :=
  ∀ (b d : Byte) (s : State), s.kind = .none → b ≠ 0x7E#8 → ¬(s.esc = false ∧ b = 0x7D#8) →
    d = (if s.esc then b ^^^ 0x20#8 else b) →
      4 ≤ s.pos.toNat → s.pos.toNat ≠ 256 * s.lenMsb.toNat + s.lenLsb.toNat + 3 →
      s.cfg.frameCap.val ≤ s.pos.toNat - 4 →
      ∃ flen : Half, flen.toNat = s.pos.toNat - 4 ∧
        (s.pos.toNat ≤ s.cfg.frameCap.val + 4 → flen.toNat = s.cfg.frameCap.val) ∧
        exec (.rxByte b) s = .next (accepted
          { s with
            kind := .failed
            err := .frameTooLarge
            flen := flen
            pos := 0#16
            rck := 0#8
            esc := false })

/-- Rules R61 and R171, the buffer write of the decoder (spec/20_memory.md section 1, spec/42_decoder.md section 1). The last clause, that the buffer keeps its canonical form, is the model's own: notes/assumptions/7.md. -/
def Obligations.PayloadByteIsStored : Prop :=
  ∀ (b d : Byte) (s : State), s.kind = .none → b ≠ 0x7E#8 → ¬(s.esc = false ∧ b = 0x7D#8) →
    d = (if s.esc then b ^^^ 0x20#8 else b) →
      4 ≤ s.pos.toNat → s.pos.toNat ≠ 256 * s.lenMsb.toNat + s.lenLsb.toNat + 3 →
      s.pos.toNat - 4 < s.cfg.frameCap.val →
      ∃ (m : List Host.Cell) (p : Half),
        exec (.rxByte b) s = .next (accepted
          { s with buf := m, pos := p, rck := s.rck + d, esc := false }) ∧
        p.toNat = s.pos.toNat + 1 ∧
        bufRead m (s.pos.toNat - 4) = some d ∧
        (∀ a, a ≠ s.pos.toNat - 4 → bufRead m a = bufRead s.buf a) ∧
        (Memory.wf s.buf = true → Memory.wf m = true)

/-- The refused byte of RX_BYTE (spec/42_decoder.md section 2). That a wire-byte row on the port is the host's RX_BYTE of its byte is the model's choice: notes/assumptions/5.md. -/
def Obligations.HeldResultRefusesBytes : Prop :=
  ∀ (b : Byte) (s : State), s.kind ≠ .none →
    let refused : State := { s with resp := some (statusWord s false) }
    exec (.rxByte b) s = .next refused ∧
    exec .wireStart s = .next refused ∧ exec .wireEsc s = .next refused ∧
    exec .wireXon s = .next refused ∧ exec .wireXoff s = .next refused ∧
    exec (.wireData b) s = .next refused

/-- The decoder acts only inside host commands (spec/00_scope.md section 4). That a wire row of the opcode table on the port is the host's RX_BYTE of its byte is the model's choice: notes/assumptions/5.md. -/
def Obligations.WireBytesActAsRxBytes : Prop :=
  (∀ (i : Instr) (b : Byte) (s : State),
    (i = .wireStart ∧ b = 0x7E#8) ∨ (i = .wireEsc ∧ b = 0x7D#8) ∨ (i = .wireXon ∧ b = 0x11#8) ∨
      (i = .wireXoff ∧ b = 0x13#8) ∨ i = .wireData b →
    ∃ (t : State) (w : Word), exec i s = .next t ∧ exec (.rxByte b) s = .next t ∧
      t.resp = some w) ∧
  ∀ (b : Byte) (s : State) (rest : List Input), s.wait = none →
    step { s with agenda := .unit (.wire b) :: rest } =
      step { s with
        agenda := .unit (.command (BitVec.ofNat 32 (0x10000000 + b.toNat))) :: rest }

/-- The byte classes of rule R100 (spec/30_encoding.md section 3), on the wire-byte rows. That such a row on the port is the host's RX_BYTE of its byte is the model's choice: notes/assumptions/5.md. -/
def Obligations.WireByteClasses : Prop :=
  ∀ (s : State), s.kind = .none →
    (s.pos = 0#16 →
      exec .wireStart s = .next (accepted { s with pos := 1#16, rck := 0#8, esc := false }) ∧
      exec .wireEsc s = .next (accepted s) ∧ exec .wireXon s = .next (accepted s) ∧
      exec .wireXoff s = .next (accepted s) ∧
      ∀ b, b ≠ 0x7E#8 → exec (.wireData b) s = .next (accepted s)) ∧
    (s.pos ≠ 0#16 →
      (∃ t, exec .wireStart s = .next t ∧ t.kind = .failed ∧ t.err = .unexpectedRestart) ∧
      (s.esc = false → exec .wireEsc s = .next (accepted { s with esc := true })) ∧
      ∀ (i : Instr) (b d : Byte),
        (i = .wireEsc ∧ b = 0x7D#8 ∧ s.esc = true) ∨ (i = .wireXon ∧ b = 0x11#8) ∨
          (i = .wireXoff ∧ b = 0x13#8) ∨ (i = .wireData b ∧ i.wf = true) →
        d = (if s.esc then b ^^^ 0x20#8 else b) →
          exec i s = .next (accepted (dispatchByte d (accumulate d { s with esc := false }))) ∧
          (s.pos = 1#16 →
            exec i s = .next (accepted { s with esc := false, lenMsb := d, pos := 2#16 })) ∧
          (s.pos = 2#16 →
            exec i s = .next (accepted { s with esc := false, lenLsb := d, pos := 3#16 })) ∧
          (s.pos = 3#16 → exec i s = .next (accepted
            { s with esc := false, rck := s.rck + d, tag := d, pos := 4#16 })))

/-- RX_POLL (spec/42_decoder.md section 2): no byte is skipped and none is read twice (spec/20_memory.md section 2), and later bytes stay in RXQ (spec/60_exceptions.md section 5). -/
def Obligations.RxPollConsumesUpToResult : Prop :=
  ∀ s : State, ∃ (r u : State) (used left : List Byte),
    exec .rxAck s = .next r ∧ s.rxq = used ++ left ∧
    runAll (used.map .rxByte) { r with rxq := left } = .next u ∧
    u.rxq = left ∧ (left = [] ∨ u.kind ≠ .none) ∧
    (∀ k, k < used.length →
      ∃ v, runAll ((used.take k).map .rxByte) { r with rxq := left } = .next v ∧ v.kind = .none) ∧
    exec .rxPoll s = .next { u with resp := some (statusWord u false) }

/-- The frame of RX_POLL. RX_WAIT has the same frame: its registers are RX_POLL's by RxWaitFirstIteration. -/
def Obligations.RxPollFrame : Prop :=
  ∀ s t : State, exec .rxPoll s = .next t →
    t.cfg = s.cfg ∧ t.txBusy = s.txBusy ∧ t.txRem = s.txRem ∧ t.tck = s.tck ∧ t.fault = s.fault ∧
    t.txlog = s.txlog ∧ t.now = s.now ∧ t.wait = s.wait ∧ t.agenda = s.agenda ∧
    t.draws = s.draws ∧ (∃ used, s.rxq = used ++ t.rxq) ∧
    ∀ a, a < written s.pos.toNat ∨
        (if t.kind = .none then written t.pos.toNat else t.flen.toNat) ≤ a →
      bufRead t.buf a = bufRead s.buf a

/-- RX_WAIT's first iteration (spec/42_decoder.md section 2). It completes where the poll gives a result or t = 0; otherwise it waits, and RxWaitLaterIteration says what each later iteration does. The split into steps is the model's: notes/assumptions/6.md. -/
def Obligations.RxWaitFirstIteration : Prop :=
  ∀ (n : Nat) (s : State), ∃ p : State, exec .rxPoll s = .next p ∧
    exec (.rxWait n) s = .next
      (if p.kind ≠ .none then { p with wait := none }
      else if n = 0 then
        { p with pos := 0#16, rck := 0#8, esc := false, wait := none, resp := some 0x00000012#32 }
      else { p with wait := some { t0 := s.now, t := n, lifted := false }, resp := none })

/-- RX_WAIT's later iterations (spec/42_decoder.md section 2; Timeout, spec/60_exceptions.md section 1): notes/assumptions/6.md. -/
def Obligations.RxWaitLaterIteration : Prop :=
  ∀ (w : Wait) (s : State), s.wait = some w → w.lifted = true → s.kind = .none →
    ∃ p : State, exec .rxPoll s = .next p ∧
      step s = .next
        (if p.kind ≠ .none then { p with wait := none }
        else if s.now - w.t0 ≥ w.t then
          { p with pos := 0#16, rck := 0#8, esc := false, wait := none, resp := some 0x00000012#32 }
        else { p with wait := some { w with lifted := false }, resp := none })

/-- Rule R354, termination under the fairness assumption (spec/70_reset_and_hazards.md section 4). The bound of two steps a move and the lifted mark belong to RX_WAIT as several steps, which is the model's: notes/assumptions/6.md. -/
def Obligations.RxWaitTerminates : Prop :=
  ∀ (es : List EnvMove) (rest : List Input) (s : State) (w : Wait),
    s.wait = some w → w.lifted = false → s.agenda = es.map .env ++ rest →
      (es ≠ [] → w.t0 + w.t ≤ s.now + (es.map EnvMove.advance).sum →
        ∃ (k : Nat) (t : State), k ≤ 2 * es.length ∧ runSteps k s = .next t ∧
          t.wait = none ∧ t.resp ≠ none) ∧
      (s.kind = .none → s.rxq = [] → w.t0 ≤ s.now → (∀ e ∈ es, e.arrive = []) →
        s.now + (es.map EnvMove.advance).sum < w.t0 + w.t →
        ∃ t : State, runSteps (2 * es.length) s = .next t ∧ t.wait = some w)

/-- Rule R313, with the whole effect of RX_ACK. -/
def Obligations.ReleaseIsReturnFromResult : Prop :=
  ∀ s : State, ∃ r : State,
    exec .rxAck s = .next { r with resp := some (statusWord r false) } ∧
    (s.kind = .none → r = s) ∧
    (s.kind ≠ .none → r = { s with kind := .none, err := .none }) ∧
    exec .rxAck { r with resp := some (statusWord r false) } =
      .next { r with resp := some (statusWord r false) } ∧
    exec .rxPoll s = exec .rxPoll { r with resp := some (statusWord r false) } ∧
    ∀ n, exec (.rxWait n) s = exec (.rxWait n) { r with resp := some (statusWord r false) }

/-- TX_BEGIN (spec/43_encoder.md section 2), its faults (spec/60_exceptions.md section 2) and their order (section 4). RX state is not named in any case, so no decoder register is written. -/
def Obligations.TxBeginOpensOrSendsFrame : Prop :=
  ∀ (tag : Byte) (n : Nat) (s : State),
    let header : List Byte := stuff (BitVec.ofNat 8 ((n + 1) / 256)) ++
      stuff (BitVec.ofNat 8 ((n + 1) % 256)) ++ stuff tag
    (s.txBusy = true →
      exec (.txBegin tag n) s = .next (respondTx { s with fault := s.fault ||| 2#8 })) ∧
    (s.txBusy = false → 0xFFFE < n →
      exec (.txBegin tag n) s = .next (respondTx { s with fault := s.fault ||| 8#8 })) ∧
    (s.txBusy = false → n = 0 →
      exec (.txBegin tag n) s = .next (respondTx
        { s with tck := tag, txlog := s.txlog ++ encodeFrame tag [] })) ∧
    (s.txBusy = false → 0 < n → n ≤ 0xFFFE →
      exec (.txBegin tag n) s = .next (respondTx
        { s with
          tck := tag
          txBusy := true
          txRem := BitVec.ofNat 16 n
          txlog := s.txlog ++ (0x7E#8 :: header).map .write }))

/-- TX_DATA (spec/43_encoder.md section 2). -/
def Obligations.TxDataSendsByteAndClosesFrame : Prop :=
  ∀ (b : Byte) (s : State),
    (s.txBusy = false →
      exec (.txData b) s = .next (respondTx { s with fault := s.fault ||| 4#8 })) ∧
    (s.txBusy = true → s.txRem ≠ 1#16 →
      exec (.txData b) s = .next (respondTx
        { s with
          tck := s.tck + b
          txRem := s.txRem - 1#16
          txlog := s.txlog ++ (stuff b).map .write })) ∧
    (s.txBusy = true → s.txRem = 1#16 →
      exec (.txData b) s = .next (respondTx
        { s with
          tck := s.tck + b
          txRem := 0#16
          txBusy := false
          txlog := s.txlog ++ (stuff b ++ stuff (~~~(s.tck + b))).map .write ++ [.flush] }))

/-- Rule R224 (spec/43_encoder.md section 2) for a TX_FRAME with no other command in between; that RX commands in between do not change the result is left to RxAndTxCommandsCommute. `TX_REM = 0` is rule R34's "0 when TX_BUSY = 0", kept by every step (TxInvariantKept). -/
def Obligations.TxFrameSendsEncodeFrame : Prop :=
  ∀ (tag : Byte) (p : List Byte) (s : State),
    s.txBusy = false → s.txRem = 0#16 → p.length ≤ 0xFFFE →
      ∃ (tck : Byte) (resp : Option Word),
        runAll (.txBegin tag p.length :: p.map .txData) s =
          .next { s with tck := tck, resp := resp, txlog := s.txlog ++ encodeFrame tag p }

/-- The encoder invariant's clause on TCK and TXLOG (spec/43_encoder.md section 3): the events are the prefix for the bytes given so far. -/
def Obligations.OpenFrameIsPrefix : Prop :=
  ∀ (tag : Byte) (n : Nat) (q : List Byte) (s : State),
    s.txBusy = false → q.length < n → n ≤ 0xFFFE →
      let sent : List Event := (0x7E#8 :: stuffAll
        ([BitVec.ofNat 8 ((n + 1) / 256), BitVec.ofNat 8 ((n + 1) % 256), tag] ++ q)).map .write
      ∃ t : State,
        runAll (.txBegin tag n :: q.map .txData) s = .next t ∧
        t.txBusy = true ∧ t.txRem.toNat = n - q.length ∧
        t.tck.toNat = byteSum (tag :: q) % 256 ∧ t.fault = s.fault ∧
        t.txlog = s.txlog ++ sent ∧
        ∀ r : List Byte, q.length + r.length = n → sent <+: encodeFrame tag (q ++ r)

/-- Rule R229, clauses (a) to (e). -/
def Obligations.EncodeFrameShape : Prop :=
  ∀ (tag : Byte) (p : List Byte), p.length ≤ 0xFFFE →
    ∃ ws : List Byte, encodeFrame tag p = ws.map .write ++ [.flush] ∧
      (∀ i, ws[i]? = some 0x7E#8 ↔ i = 0) ∧
      0x11#8 ∉ ws ∧ 0x13#8 ∉ ws ∧
      (∀ i, ws[i]? = some 0x7D#8 →
        ∃ y ∈ [0x5E#8, 0x5D#8, 0x31#8, 0x33#8], ws[i + 1]? = some y) ∧
      ws.length = p.length + 5 +
        (BitVec.ofNat 8 ((p.length + 1) / 256) :: BitVec.ofNat 8 ((p.length + 1) % 256) :: tag ::
          (p ++ [ckCompute (tag :: p)])).countP isSpecial

/-- The no-operation and the register reads (spec/44_buffer_dispatch.md section 1). -/
def Obligations.RegisterReadsReturnRegister : Prop :=
  ∀ s : State,
    exec .nop s = .next { s with resp := some 0x00000000#32 } ∧
    exec .rdTag s = .next { s with resp := some (BitVec.ofNat 32 s.tag.toNat) } ∧
    exec .rdDeclen s =
      .next { s with resp := some (BitVec.ofNat 32 (256 * s.lenMsb.toNat + s.lenLsb.toNat)) } ∧
    exec .rdFlen s = .next { s with resp := some (BitVec.ofNat 32 s.flen.toNat) } ∧
    exec .rdCksum s = .next { s with resp := some (BitVec.ofNat 32 s.rxck.toNat) }

/-- The layouts of SW and TW (spec/30_encoding.md section 2), by numeric value, with RX_BYTE's ACCEPTED bit. -/
def Obligations.StatusWordsHaveTheirLayout : Prop :=
  (∀ s : State,
    exec .rdStatus s = .next { s with resp := some (BitVec.ofNat 32
      ((match s.kind with | .none => 0 | .complete => 1 | .failed => 2) +
        4 * (match s.err with
          | .none => 0
          | .checksumFailure => 1
          | .frameTooLarge => 2
          | .unexpectedRestart => 3
          | .timeout => 4) +
        32 * (if s.pos = 0#16 then 0 else 1) + 64 * s.esc.toNat + 65536 * s.pos.toNat)) } ∧
    exec .rdTxstat s = .next { s with resp := some (BitVec.ofNat 32
      (s.txBusy.toNat + 256 * s.fault.toNat + 65536 * s.txRem.toNat)) }) ∧
  ∀ (b : Byte) (s : State),
    (s.kind = .none → ∃ (t : State) (w : Word), exec (.rxByte b) s = .next t ∧
      exec .rdStatus t = .next { t with resp := some w } ∧ t.resp = some (w + 128#32)) ∧
    (s.kind ≠ .none → exec (.rxByte b) s = exec .rdStatus s)

/-- RD_BUF (spec/44_buffer_dispatch.md section 2). The count of draws is the model's own (notes/assumptions/4.md); the response out of range is a free value and nothing is said of it. -/
def Obligations.RdBufReadsWrittenByte : Prop :=
  ∀ (a : Nat) (s : State),
    (s.cfg.frameCap.val ≤ a → ∃ r : Word, exec (.rdBuf a) s =
      .next { s with fault := s.fault ||| 16#8, resp := some r, draws := s.draws + 1 }) ∧
    (a < s.cfg.frameCap.val → ∀ v, bufRead s.buf a = some v →
      exec (.rdBuf a) s = .next { s with resp := some (BitVec.ofNat 32 v.toNat) }) ∧
    (a < s.cfg.frameCap.val → bufRead s.buf a = none →
      exec (.rdBuf a) s = .fault (.bufUnwritten a))

/-- VIEW_FOR (spec/44_buffer_dispatch.md section 3), its word by numeric value. -/
def Obligations.ViewForDispatchesOnTag : Prop :=
  ∀ s : State,
    (s.kind ≠ .complete → exec .viewFor s = .next { s with resp := some 0x00000000#32 }) ∧
    (s.kind = .complete → (∀ e ∈ s.cfg.viewTable, e.tag ≠ s.tag) →
      exec .viewFor s = .next { s with resp := some 0x40000000#32 }) ∧
    (s.kind = .complete → s.cfg.wf = true → ∀ e ∈ s.cfg.viewTable, e.tag = s.tag →
      exec .viewFor s = .next { s with resp := some (BitVec.ofNat 32
        (2 ^ 31 + (if s.flen.toNat < e.prefixLen then 2 ^ 29 else 0) +
          2 ^ 16 * e.viewId.toNat + (s.flen.toNat - e.prefixLen))) })

/-- Rule R258, clauses (a) to (c). -/
def Obligations.ViewForIsTableDriven : Prop :=
  (∀ s s' t t' : State, (s.kind = .complete ↔ s'.kind = .complete) → s.tag = s'.tag →
    s.flen = s'.flen → s.cfg.viewTable = s'.cfg.viewTable →
    exec .viewFor s = .next t → exec .viewFor s' = .next t' → t.resp = t'.resp) ∧
  (∀ (s t t' : State) (before after : List ViewEntry) (e : ViewEntry),
    s.cfg.viewTable = before ++ after → e.tag ≠ s.tag →
    exec .viewFor s = .next t →
    exec .viewFor { s with cfg := { s.cfg with viewTable := before ++ e :: after } } = .next t' →
    t.resp = t'.resp) ∧
  (∀ (s s' t t' : State) (e e' : ViewEntry) (w w' : Word),
    s.cfg.wf = true → s'.cfg = s.cfg → s.kind = .complete → s'.kind = .complete →
    e ∈ s.cfg.viewTable → e.tag = s.tag → e' ∈ s.cfg.viewTable → e'.tag = s'.tag → s.tag ≠ s'.tag →
    exec .viewFor s = .next t → exec .viewFor s' = .next t' → t.resp = some w → t'.resp = some w' →
    w.toNat / 2 ^ 16 % 2 ^ 8 ≠ w'.toNat / 2 ^ 16 % 2 ^ 8)

/-- The side effects of reads (spec/20_memory.md section 4). -/
def Obligations.ReadsHaveNoSideEffect : Prop :=
  ∀ (i : Instr) (s t : State),
    i ∈ [.nop, .rdStatus, .rdTag, .rdDeclen, .rdFlen, .rdCksum, .rdTxstat, .viewFor] ∨
      (∃ a, i = .rdBuf a ∧ a < s.cfg.frameCap.val) →
    exec i s = .next t → t = { s with resp := t.resp } ∧ exec i t = .next t

/-- RESET (spec/70_reset_and_hazards.md section 1). That RESET also drops an RX_WAIT in progress, which no host command can meet, is the model's choice: notes/assumptions/6.md. -/
def Obligations.ResetCommandKeepsFaultAndStreams : Prop :=
  ∀ s : State, ∃ t : State, exec .reset s = .next t ∧ t.resp = some 0x00000000#32 ∧
    t.pos = 0#16 ∧ t.esc = false ∧ t.rck = 0#8 ∧ t.lenMsb = 0#8 ∧ t.lenLsb = 0#8 ∧ t.tag = 0#8 ∧
    t.rxck = 0#8 ∧ t.flen = 0#16 ∧ t.kind = .none ∧ t.err = .none ∧ t.txBusy = false ∧
    t.txRem = 0#16 ∧ t.tck = 0#8 ∧ t.fault = s.fault ∧ t.rxq = s.rxq ∧ t.txlog = s.txlog ∧
    t.now = s.now ∧ t.cfg = s.cfg ∧ t.agenda = s.agenda ∧ t.wait = none ∧ t.draws = s.draws ∧
    ∀ a, bufRead t.buf a = none ∧
      (a < s.cfg.frameCap.val → exec (.rdBuf a) t = .fault (.bufUnwritten a))

/-- Rule R45. `State.reset` is this with the standard parameters, an empty RXQ and NOW = 0. -/
def Obligations.PowerOnValues : Prop :=
  ∀ (c : Config) (q : List Byte) (n : Nat),
    (State.powerOn c q n).pos = 0#16 ∧ (State.powerOn c q n).esc = false ∧
    (State.powerOn c q n).rck = 0#8 ∧ (State.powerOn c q n).lenMsb = 0#8 ∧
    (State.powerOn c q n).lenLsb = 0#8 ∧ (State.powerOn c q n).tag = 0#8 ∧
    (State.powerOn c q n).rxck = 0#8 ∧ (State.powerOn c q n).flen = 0#16 ∧
    (State.powerOn c q n).kind = .none ∧ (State.powerOn c q n).err = .none ∧
    (∀ a, bufRead (State.powerOn c q n).buf a = none) ∧
    (State.powerOn c q n).txBusy = false ∧ (State.powerOn c q n).txRem = 0#16 ∧
    (State.powerOn c q n).tck = 0#8 ∧ (State.powerOn c q n).fault = 0#8 ∧
    rxEvent (State.powerOn c q n) = false ∧ (State.powerOn c q n).txlog = [] ∧
    (State.powerOn c q n).rxq = q ∧ (State.powerOn c q n).now = n

/-- The sticky FAULT register (spec/10_state.md section 4, spec/60_exceptions.md section 2). -/
def Obligations.FaultBitsAreSticky : Prop :=
  ∀ s t : State, step s = .next t →
    (∀ k, s.fault.getLsbD k = true → t.fault.getLsbD k = true) ∧
    (FaultReserved s → FaultReserved t)

/-- Rule R312. -/
def Obligations.FaultEntrySetsOneBit : Prop :=
  ∀ (i : Instr) (s t : State), exec i s = .next t → t.fault ≠ s.fault →
    ∃ f : FaultBit, t =
      { s with fault := s.fault ||| BitVec.twoPow 8 f.index, resp := t.resp, draws := t.draws }

/-- Rule R348, for ESC and every other decoder register. -/
def Obligations.DecoderStateOnlyByRxCommands : Prop :=
  ∀ (i : Instr) (s t : State), exec i s = .next t →
    (i = .rxAck → t.esc = s.esc ∧ t.pos = s.pos ∧ t.rck = s.rck) ∧
    (i ∈ [.nop, .rdStatus, .rdTag, .rdDeclen, .rdFlen, .rdCksum, .viewFor, .rdTxstat] ∨
        (∃ a, i = .rdBuf a) ∨ (∃ tag n, i = .txBegin tag n) ∨ (∃ b, i = .txData b) →
      t.esc = s.esc ∧ t.pos = s.pos ∧ t.rck = s.rck ∧ t.lenMsb = s.lenMsb ∧ t.lenLsb = s.lenLsb ∧
      t.tag = s.tag ∧ t.rxck = s.rxck ∧ t.flen = s.flen ∧ t.kind = s.kind ∧ t.err = s.err ∧
      t.buf = s.buf ∧ t.rxq = s.rxq)

/-- The streams, the clock and the encoder registers (spec/10_state.md sections 3 to 5). -/
def Obligations.StreamsAndClockHaveOneOwner : Prop :=
  ∀ (i : Instr) (s t : State), exec i s = .next t →
    t.now = s.now ∧ t.cfg = s.cfg ∧ t.agenda = s.agenda ∧
    (s.txlog <+: t.txlog) ∧ (t.rxq <:+ s.rxq) ∧
    ((∀ n, i ≠ .rxWait n) → i ≠ .rxPoll → t.rxq = s.rxq) ∧
    ((∀ tag n, i ≠ .txBegin tag n) → (∀ b, i ≠ .txData b) →
      t.txlog = s.txlog ∧
      (i ≠ .reset → t.txBusy = s.txBusy ∧ t.txRem = s.txRem ∧ t.tck = s.tck))

/-- The parameters are rule R345's and the clock is rule R40's. Whose step it is, is told by the agenda and the lifted mark, which are the model's: notes/assumptions/3.md and 6.md. -/
def Obligations.ParametersNeverChange : Prop :=
  (∀ s t : State, step s = .next t →
    t.cfg = s.cfg ∧ s.now ≤ t.now ∧
    ((∃ w, s.wait = some w ∧ w.lifted = true) ∨ (∀ e rest, s.agenda ≠ .env e :: rest) →
      t.now = s.now)) ∧
  ∀ (i : Instr) (s t : State) (n : Nat), (∀ m, i ≠ .rxWait m) → exec i s = .next t →
    exec i { s with now := n } = .next { t with now := n }

/-- The decoder and encoder share no state (spec/10_state.md section 4), so RX and TX commands commute (spec/20_memory.md section 6). The wire-byte rows as RX commands are the model's choice (notes/assumptions/5.md), and so is a TX command run on a state in which RX_WAIT waits, which step never does (notes/assumptions/6.md). -/
def Obligations.RxAndTxCommandsCommute : Prop :=
  ∀ (rx tx : Instr) (s : State),
    (rx = .rxPoll ∨ rx = .rxAck ∨ (∃ n, rx = .rxWait n) ∨ (∃ b, rx = .rxByte b) ∨ rx = .wireStart ∨
      rx = .wireEsc ∨ rx = .wireXon ∨ rx = .wireXoff ∨ (∃ b, rx = .wireData b)) →
    ((∃ tag n, tx = .txBegin tag n) ∨ (∃ b, tx = .txData b)) →
      ∃ t t' : State, runAll [rx, tx] s = .next t ∧ runAll [tx, rx] s = .next t' ∧
        t = { t' with resp := t.resp }

/-- Rule R190 as an inductive invariant. -/
def Obligations.SessionInvariantKept : Prop :=
  (∀ s t : State, SessionInv s → step s = .next t → SessionInv t) ∧
  ∀ (c : Config) (q : List Byte) (n : Nat) (a : List Input),
    SessionInv { State.powerOn c q n with agenda := a }

/-- Rule R198 as an inductive invariant. -/
def Obligations.BoundsKept : Prop :=
  (∀ s t : State, BoundsInv s → step s = .next t → BoundsInv t) ∧
  ∀ (c : Config) (q : List Byte) (n : Nat) (a : List Input),
    BoundsInv { State.powerOn c q n with agenda := a }

/-- The accumulator invariant (spec/42_decoder.md section 3) relative to the session invariant, with its two bullets: the sum, and the bytes of the current frame in order, said byte by byte. RX_POLL and RX_WAIT take their bytes as RX_BYTE does (RxPollConsumesUpToResult, RxWaitFirstIteration). -/
def Obligations.AccumulatorInvariantKept : Prop :=
  (∀ s t : State, SessionInv s → AccumInv s → step s = .next t → AccumInv t) ∧
  (∀ (c : Config) (q : List Byte) (n : Nat) (a : List Input),
    SessionInv { State.powerOn c q n with agenda := a } ∧
    AccumInv { State.powerOn c q n with agenda := a }) ∧
  (∀ (b : Byte) (s : State), SessionInv s → s.kind = .none → s.pos = 3#16 →
    ∃ t, exec (.rxByte b) s = .next t ∧
      (t.kind = .none → 4 ≤ t.pos.toNat → CurrentFrame t [])) ∧
  ∀ (b d : Byte) (p : List Byte) (s : State), s.kind = .none → CurrentFrame s p →
    d = (if s.esc then b ^^^ 0x20#8 else b) →
    ∃ t, exec (.rxByte b) s = .next t ∧
      (t.kind = .none → CurrentFrame t (if s.esc = false ∧ b = 0x7D#8 then p else p ++ [d]))

/-- Rule R192 as an invariant relative to those of rules R190, R191 and R198. -/
def Obligations.CompleteFrameIsVerified : Prop :=
  (∀ s t : State, SessionInv s → BoundsInv s → AccumInv s → CompleteInv s → step s = .next t →
    CompleteInv t) ∧
  ∀ (c : Config) (q : List Byte) (n : Nat) (a : List Input),
    CompleteInv { State.powerOn c q n with agenda := a }

/-- The encoder invariant on TX_BUSY and TX_REM (spec/43_encoder.md section 3); its clause on TCK and TXLOG is OpenFrameIsPrefix. -/
def Obligations.TxInvariantKept : Prop :=
  (∀ s t : State, TxInv s → step s = .next t → TxInv t) ∧
  ∀ (c : Config) (q : List Byte) (n : Nat) (a : List Input),
    TxInv { State.powerOn c q n with agenda := a }

/-- The canonical form is the model's own (notes/assumptions/7.md); the buffer is that of spec/10_state.md section 2. -/
def Obligations.MemoryStaysCanonical : Prop :=
  (∀ s t : State, Memory.wf s.buf = true → step s = .next t → Memory.wf t.buf = true) ∧
  ∀ (c : Config) (q : List Byte) (n : Nat), Memory.wf (State.powerOn c q n).buf = true

/-- Reset values (spec/70_reset_and_hazards.md section 1); the parameters of State.reset are the model's choice (notes/assumptions/2.md). -/
def Obligations.InvariantsHoldAtReset : Prop :=
  SessionInv State.reset ∧ BoundsInv State.reset ∧ AccumInv State.reset ∧
  CompleteInv State.reset ∧ TxInv State.reset ∧ FaultReserved State.reset ∧
  WaitInv State.reset ∧ NoTimeoutHeld State.reset ∧ Memory.wf State.reset.buf = true

/-- Over every reachable state, for every agenda the host and the environment can choose. That WaitInv belongs to a step split out of RX_WAIT is the model's: notes/assumptions/6.md. -/
def Obligations.ReachableStatesAreSound : Prop :=
  ∀ (c : Config) (s : State), Reachable c s →
    s.cfg = c ∧ SessionInv s ∧ BoundsInv s ∧ AccumInv s ∧ CompleteInv s ∧ TxInv s ∧
    NoTimeoutHeld s ∧ FaultReserved s ∧ WaitInv s ∧ Memory.wf s.buf = true

/-- Rule R193 (spec/42_decoder.md section 3), for pieces of at least one byte each and for one kind of RX command throughout. -/
def Obligations.PartialDelivery : Prop :=
  ∀ (s : State) (chunks : List (List Byte)), s.kind = .none → s.rxq = [] → chunks ≠ [] →
    (∀ c ∈ chunks, c ≠ []) →
    (∃ v, runAll (chunks.flatten.dropLast.map .rxByte) s = .next v ∧ v.kind = .none) →
      ∃ u, runAll (chunks.flatten.map .rxByte) s = .next u ∧
        pollChunks [chunks.flatten] s = .next { u with resp := some (statusWord u false) } ∧
        pollChunks chunks s = .next { u with resp := some (statusWord u false) }

/-- Rule R227. `frameWire tag p` is the list of the bytes of encode_frame's Write events (rule R220). -/
def Obligations.RoundTrip : Prop :=
  ∀ (tag : Byte) (p : List Byte) (s : State), s.kind = .none → s.rxq = [] →
    p.length ≤ s.cfg.frameCap.val →
    let Decoded : State → Prop := fun t =>
      t.kind = .complete ∧ t.err = .none ∧ t.tag = tag ∧ (declen t).toNat = p.length + 1 ∧
      t.flen.toNat = p.length ∧ HoldsPayload t.buf p ∧ t.rxck = ckCompute (tag :: p) ∧
      t.pos = 0#16
    (s.pos = 0#16 →
      (∃ t, runAll ((frameWire tag p).map .rxByte) s = .next t ∧ Decoded t) ∧
      ∀ chunks : List (List Byte), (∀ c ∈ chunks, c ≠ []) → chunks.flatten = frameWire tag p →
        ∃ t, pollChunks chunks s = .next t ∧ Decoded t) ∧
    (s.pos ≠ 0#16 → s.cfg.restart = .resync →
      ∃ t u, exec .rxPoll { s with rxq := frameWire tag p } = .next t ∧
        t.kind = .failed ∧ t.err = .unexpectedRestart ∧
        exec .rxPoll t = .next u ∧ Decoded u)

/-- Rule R135. The flipped byte is stuffed again, so the frame's positions are unchanged, as the rule requires. -/
def Obligations.SingleBitFlipAlwaysDetected : Prop :=
  ∀ (tag : Byte) (p : List Byte) (j k : Nat) (s : State), s.kind = .none → s.pos = 0#16 →
    p.length ≤ s.cfg.frameCap.val → j < p.length + 2 → k < 8 →
      let flipped : List Byte :=
        ([tag] ++ p ++ [ckCompute (tag :: p)]).modify j (fun x => x ^^^ BitVec.twoPow 8 k)
      let wire : List Byte := 0x7E#8 :: stuffAll
        ([msb (lengthField p.length), lsb (lengthField p.length)] ++ flipped)
      ∃ t, exec .rxPoll { s with rxq := wire } = .next t ∧
        t.kind = .failed ∧ t.err = .checksumFailure

/-- Rule R195. -/
def Obligations.NoiseIsSkippedToNextStart : Prop :=
  (∀ (bs rest : List Byte) (s : State), s.pos = 0#16 → 0x7E#8 ∉ bs →
    exec .rxPoll { s with rxq := bs ++ rest } = exec .rxPoll { s with rxq := rest }) ∧
  (∀ (tag : Byte) (p q : List Byte), q <:+ frameWire tag p → q ≠ frameWire tag p → 0x7E#8 ∉ q)

/-- Rule R197. -/
def Obligations.ZeroLengthNeverCompletes : Prop :=
  ∀ (b d : Byte) (s : State), s.kind = .none → (declen s).toNat = 0 →
    d = (if s.esc then b ^^^ 0x20#8 else b) →
    (s.pos = 3#16 → b ≠ 0x7E#8 → ¬(s.esc = false ∧ b = 0x7D#8) →
      ∃ t, exec (.rxByte b) s = .next t ∧ t.kind = .none ∧ t.tag = d ∧ t.pos = 4#16 ∧
        (declen t).toNat = 0) ∧
    (4 ≤ s.pos.toNat →
      (b = 0x7E#8 → ∃ t, exec (.rxByte b) s = .next t ∧ t.kind = .failed ∧
        t.err = .unexpectedRestart) ∧
      (s.esc = false → b = 0x7D#8 → exec (.rxByte b) s = .next (accepted { s with esc := true })) ∧
      (b ≠ 0x7E#8 → ¬(s.esc = false ∧ b = 0x7D#8) → s.pos.toNat - 4 < s.cfg.frameCap.val →
        ∃ t, exec (.rxByte b) s = .next t ∧ t.kind = .none ∧ (declen t).toNat = 0 ∧
          t.pos.toNat = s.pos.toNat + 1 ∧ bufRead t.buf (s.pos.toNat - 4) = some d) ∧
      (b ≠ 0x7E#8 → ¬(s.esc = false ∧ b = 0x7D#8) → s.cfg.frameCap.val ≤ s.pos.toNat - 4 →
        ∃ t, exec (.rxByte b) s = .next t ∧ t.kind = .failed ∧ t.err = .frameTooLarge))

/-- Rule R194. -/
def Obligations.RestartLeavesNoResidue : Prop :=
  ∀ (s : State) (bs : List Byte), s.kind = .none → s.pos ≠ 0#16 → s.cfg.restart = .resync →
    ∃ t u : State,
      runAll ([.rxByte 0x7E#8, .rxAck] ++ bs.map .rxByte) s = .next t ∧
      runAll ([.rxByte 0x7E#8] ++ bs.map .rxByte) { s with pos := 0#16, err := .none } = .next u ∧
      (t.kind = .none → t = { u with flen := t.flen, resp := t.resp }) ∧
      (t.kind ≠ .none → t = { u with resp := t.resp }) ∧
      (bs = [] → t.esc = false ∧ t.rck = 0#8 ∧ t.pos = 1#16)
end

