-- ==== Sys2Proof/Laws/Checksum.lean ====
section
/-! SUPPORT. The checksum and stuffing functions as numbers and lists. -/

namespace Sys2Proof.Machine

theorem byteSum_append (a b : List Byte) : byteSum (a ++ b) = byteSum a + byteSum b := by
  induction a with
  | nil => simp [byteSum]
  | cons x a ih => simp [byteSum, ih]; omega

theorem ckAdd_toNat (acc d : Byte) : (ckAdd acc d).toNat = (acc.toNat + d.toNat) % 256 := by
  simp [ckAdd]

theorem ckAdd_eq_add (acc d : Byte) : ckAdd acc d = acc + d := by
  apply BitVec.eq_of_toNat_eq; rw [ckAdd_toNat]; simp

theorem ckFinal_toNat (acc : Byte) : (ckFinal acc).toNat = 255 - acc.toNat := by
  have := acc.isLt
  simp [ckFinal]; omega

theorem ckCompute_toNat (bs : List Byte) : (ckCompute bs).toNat = 255 - byteSum bs % 256 := by
  simp [ckCompute]; omega

theorem foldl_ckAdd_toNat (bs : List Byte) (acc : Byte) :
    (bs.foldl ckAdd acc).toNat = (acc.toNat + byteSum bs) % 256 := by
  induction bs generalizing acc with
  | nil => have := acc.isLt; simp [byteSum]; omega
  | cons x bs ih => simp [ih, ckAdd_toNat, byteSum]; omega

theorem stuffAll_append (a b : List Byte) : stuffAll (a ++ b) = stuffAll a ++ stuffAll b := by
  induction a with
  | nil => rfl
  | cons x a ih => simp [stuffAll, ih]

theorem start_not_mem_stuff : ∀ b : Byte, startByte ∉ stuff b := by
  decide

theorem not_mem_stuffAll {x : Byte} (h : ∀ b, x ∉ stuff b) : ∀ bs, x ∉ stuffAll bs
  | [] => by simp [stuffAll]
  | b :: bs => by simp [stuffAll, h, not_mem_stuffAll h bs]

end Sys2Proof.Machine
end

