-- ==== Sys2Proof/Laws/Decode.lean ====
section
/-! SUPPORT. The fields of a command word and the words of the encoder, as numbers. -/

namespace Sys2Proof

/-- A concatenation as a number. -/
theorem toNat_append_add {n m : Nat} (x : BitVec n) (y : BitVec m) :
    (x ++ y).toNat = x.toNat * 2 ^ m + y.toNat := by
  rw [BitVec.toNat_append, Nat.shiftLeft_eq, Nat.mul_comm, Nat.two_pow_add_eq_or_of_lt y.isLt]

theorem opcodeField_eq (w : Word) : opcodeField w = w.toNat / 2 ^ 28 := by
  have := w.isLt
  simp only [opcodeField, BitVec.extractLsb'_toNat, Nat.shiftRight_eq_div_pow]; omega

theorem byteField_toNat (w : Word) : (byteField w).toNat = w.toNat % 2 ^ 8 := by
  simp [byteField, BitVec.extractLsb'_toNat]

theorem timeoutField_eq (w : Word) : timeoutField w = w.toNat % 2 ^ 24 := by
  simp [timeoutField, BitVec.extractLsb'_toNat]

theorem halfField_eq (w : Word) : halfField w = w.toNat % 2 ^ 16 := by
  simp [halfField, BitVec.extractLsb'_toNat]

theorem tagField_toNat (w : Word) : (tagField w).toNat = w.toNat / 2 ^ 16 % 2 ^ 8 := by
  simp [tagField, BitVec.extractLsb'_toNat, Nat.shiftRight_eq_div_pow]

theorem reservedField_eq (f : Format) (w : Word) : reservedField f w =
    match f with
    | .fn => w.toNat % 2 ^ 28
    | .fb => w.toNat / 2 ^ 8 % 2 ^ 20
    | .ft => w.toNat / 2 ^ 24 % 2 ^ 4
    | .fi => w.toNat / 2 ^ 16 % 2 ^ 12
    | .fx => w.toNat / 2 ^ 24 % 2 ^ 4 := by
  cases f <;> simp [reservedField, BitVec.extractLsb'_toNat, Nat.shiftRight_eq_div_pow]

theorem wordFN_toNat (op : BitVec 4) : (wordFN op).toNat = op.toNat * 2 ^ 28 := by
  have e : (wordFN op).toNat = (op ++ 0#28).toNat := rfl
  rw [e, toNat_append_add]; simp

theorem wordFB_toNat (op : BitVec 4) (b : Byte) :
    (wordFB op b).toNat = op.toNat * 2 ^ 28 + b.toNat := by
  have e : (wordFB op b).toNat = (op ++ 0#20 ++ b).toNat := rfl
  rw [e, toNat_append_add, toNat_append_add]; simp; omega

theorem wordFT_toNat (op : BitVec 4) (t : Nat) :
    (wordFT op t).toNat = op.toNat * 2 ^ 28 + t % 2 ^ 24 := by
  have e : (wordFT op t).toNat = (op ++ 0#4 ++ BitVec.ofNat 24 t).toNat := rfl
  rw [e, toNat_append_add, toNat_append_add]; simp; omega

theorem wordFI_toNat (op : BitVec 4) (i : Nat) :
    (wordFI op i).toNat = op.toNat * 2 ^ 28 + i % 2 ^ 16 := by
  have e : (wordFI op i).toNat = (op ++ 0#12 ++ BitVec.ofNat 16 i).toNat := rfl
  rw [e, toNat_append_add, toNat_append_add]; simp; omega

theorem wordFX_toNat (op : BitVec 4) (tag : Byte) (n : Nat) :
    (wordFX op tag n).toNat = op.toNat * 2 ^ 28 + tag.toNat * 2 ^ 16 + n % 2 ^ 16 := by
  have e : (wordFX op tag n).toNat = (op ++ 0#4 ++ tag ++ BitVec.ofNat 16 n).toNat := rfl
  rw [e, toNat_append_add, toNat_append_add, toNat_append_add]; simp; omega

end Sys2Proof
end

