-- ==== Sys2Proof/Laws/State.lean ====
section
/-! SUPPORT. What each shared update of `State` does to each field, by computation. -/

namespace Sys2Proof.Machine

@[simp] theorem respond_cfg (w : Word) (s : State) : (respond w s).cfg = s.cfg := rfl
@[simp] theorem respond_pos (w : Word) (s : State) : (respond w s).pos = s.pos := rfl
@[simp] theorem respond_esc (w : Word) (s : State) : (respond w s).esc = s.esc := rfl
@[simp] theorem respond_rck (w : Word) (s : State) : (respond w s).rck = s.rck := rfl
@[simp] theorem respond_lenMsb (w : Word) (s : State) : (respond w s).lenMsb = s.lenMsb := rfl
@[simp] theorem respond_lenLsb (w : Word) (s : State) : (respond w s).lenLsb = s.lenLsb := rfl
@[simp] theorem respond_tag (w : Word) (s : State) : (respond w s).tag = s.tag := rfl
@[simp] theorem respond_rxck (w : Word) (s : State) : (respond w s).rxck = s.rxck := rfl
@[simp] theorem respond_flen (w : Word) (s : State) : (respond w s).flen = s.flen := rfl
@[simp] theorem respond_kind (w : Word) (s : State) : (respond w s).kind = s.kind := rfl
@[simp] theorem respond_err (w : Word) (s : State) : (respond w s).err = s.err := rfl
@[simp] theorem respond_buf (w : Word) (s : State) : (respond w s).buf = s.buf := rfl
@[simp] theorem respond_txBusy (w : Word) (s : State) : (respond w s).txBusy = s.txBusy := rfl
@[simp] theorem respond_txRem (w : Word) (s : State) : (respond w s).txRem = s.txRem := rfl
@[simp] theorem respond_tck (w : Word) (s : State) : (respond w s).tck = s.tck := rfl
@[simp] theorem respond_fault (w : Word) (s : State) : (respond w s).fault = s.fault := rfl
@[simp] theorem respond_rxq (w : Word) (s : State) : (respond w s).rxq = s.rxq := rfl
@[simp] theorem respond_txlog (w : Word) (s : State) : (respond w s).txlog = s.txlog := rfl
@[simp] theorem respond_now (w : Word) (s : State) : (respond w s).now = s.now := rfl
@[simp] theorem respond_resp (w : Word) (s : State) : (respond w s).resp = some w := rfl
@[simp] theorem respond_wait (w : Word) (s : State) : (respond w s).wait = s.wait := rfl
@[simp] theorem respond_agenda (w : Word) (s : State) : (respond w s).agenda = s.agenda := rfl
@[simp] theorem respond_draws (w : Word) (s : State) : (respond w s).draws = s.draws := rfl

@[simp] theorem emit_cfg (bs : List Byte) (s : State) : (emit bs s).cfg = s.cfg := rfl
@[simp] theorem emit_pos (bs : List Byte) (s : State) : (emit bs s).pos = s.pos := rfl
@[simp] theorem emit_esc (bs : List Byte) (s : State) : (emit bs s).esc = s.esc := rfl
@[simp] theorem emit_rck (bs : List Byte) (s : State) : (emit bs s).rck = s.rck := rfl
@[simp] theorem emit_lenMsb (bs : List Byte) (s : State) : (emit bs s).lenMsb = s.lenMsb := rfl
@[simp] theorem emit_lenLsb (bs : List Byte) (s : State) : (emit bs s).lenLsb = s.lenLsb := rfl
@[simp] theorem emit_tag (bs : List Byte) (s : State) : (emit bs s).tag = s.tag := rfl
@[simp] theorem emit_rxck (bs : List Byte) (s : State) : (emit bs s).rxck = s.rxck := rfl
@[simp] theorem emit_flen (bs : List Byte) (s : State) : (emit bs s).flen = s.flen := rfl
@[simp] theorem emit_kind (bs : List Byte) (s : State) : (emit bs s).kind = s.kind := rfl
@[simp] theorem emit_err (bs : List Byte) (s : State) : (emit bs s).err = s.err := rfl
@[simp] theorem emit_buf (bs : List Byte) (s : State) : (emit bs s).buf = s.buf := rfl
@[simp] theorem emit_txBusy (bs : List Byte) (s : State) : (emit bs s).txBusy = s.txBusy := rfl
@[simp] theorem emit_txRem (bs : List Byte) (s : State) : (emit bs s).txRem = s.txRem := rfl
@[simp] theorem emit_tck (bs : List Byte) (s : State) : (emit bs s).tck = s.tck := rfl
@[simp] theorem emit_fault (bs : List Byte) (s : State) : (emit bs s).fault = s.fault := rfl
@[simp] theorem emit_rxq (bs : List Byte) (s : State) : (emit bs s).rxq = s.rxq := rfl
@[simp] theorem emit_txlog (bs : List Byte) (s : State) : (emit bs s).txlog = s.txlog ++ bs.map Event.write := rfl
@[simp] theorem emit_now (bs : List Byte) (s : State) : (emit bs s).now = s.now := rfl
@[simp] theorem emit_resp (bs : List Byte) (s : State) : (emit bs s).resp = s.resp := rfl
@[simp] theorem emit_wait (bs : List Byte) (s : State) : (emit bs s).wait = s.wait := rfl
@[simp] theorem emit_agenda (bs : List Byte) (s : State) : (emit bs s).agenda = s.agenda := rfl
@[simp] theorem emit_draws (bs : List Byte) (s : State) : (emit bs s).draws = s.draws := rfl

@[simp] theorem emitFlush_cfg (s : State) : (emitFlush s).cfg = s.cfg := rfl
@[simp] theorem emitFlush_pos (s : State) : (emitFlush s).pos = s.pos := rfl
@[simp] theorem emitFlush_esc (s : State) : (emitFlush s).esc = s.esc := rfl
@[simp] theorem emitFlush_rck (s : State) : (emitFlush s).rck = s.rck := rfl
@[simp] theorem emitFlush_lenMsb (s : State) : (emitFlush s).lenMsb = s.lenMsb := rfl
@[simp] theorem emitFlush_lenLsb (s : State) : (emitFlush s).lenLsb = s.lenLsb := rfl
@[simp] theorem emitFlush_tag (s : State) : (emitFlush s).tag = s.tag := rfl
@[simp] theorem emitFlush_rxck (s : State) : (emitFlush s).rxck = s.rxck := rfl
@[simp] theorem emitFlush_flen (s : State) : (emitFlush s).flen = s.flen := rfl
@[simp] theorem emitFlush_kind (s : State) : (emitFlush s).kind = s.kind := rfl
@[simp] theorem emitFlush_err (s : State) : (emitFlush s).err = s.err := rfl
@[simp] theorem emitFlush_buf (s : State) : (emitFlush s).buf = s.buf := rfl
@[simp] theorem emitFlush_txBusy (s : State) : (emitFlush s).txBusy = s.txBusy := rfl
@[simp] theorem emitFlush_txRem (s : State) : (emitFlush s).txRem = s.txRem := rfl
@[simp] theorem emitFlush_tck (s : State) : (emitFlush s).tck = s.tck := rfl
@[simp] theorem emitFlush_fault (s : State) : (emitFlush s).fault = s.fault := rfl
@[simp] theorem emitFlush_rxq (s : State) : (emitFlush s).rxq = s.rxq := rfl
@[simp] theorem emitFlush_txlog (s : State) : (emitFlush s).txlog = s.txlog ++ [Event.flush] := rfl
@[simp] theorem emitFlush_now (s : State) : (emitFlush s).now = s.now := rfl
@[simp] theorem emitFlush_resp (s : State) : (emitFlush s).resp = s.resp := rfl
@[simp] theorem emitFlush_wait (s : State) : (emitFlush s).wait = s.wait := rfl
@[simp] theorem emitFlush_agenda (s : State) : (emitFlush s).agenda = s.agenda := rfl
@[simp] theorem emitFlush_draws (s : State) : (emitFlush s).draws = s.draws := rfl

@[simp] theorem raiseFault_cfg (f : FaultBit) (s : State) : (raiseFault f s).cfg = s.cfg := rfl
@[simp] theorem raiseFault_pos (f : FaultBit) (s : State) : (raiseFault f s).pos = s.pos := rfl
@[simp] theorem raiseFault_esc (f : FaultBit) (s : State) : (raiseFault f s).esc = s.esc := rfl
@[simp] theorem raiseFault_rck (f : FaultBit) (s : State) : (raiseFault f s).rck = s.rck := rfl
@[simp] theorem raiseFault_lenMsb (f : FaultBit) (s : State) : (raiseFault f s).lenMsb = s.lenMsb := rfl
@[simp] theorem raiseFault_lenLsb (f : FaultBit) (s : State) : (raiseFault f s).lenLsb = s.lenLsb := rfl
@[simp] theorem raiseFault_tag (f : FaultBit) (s : State) : (raiseFault f s).tag = s.tag := rfl
@[simp] theorem raiseFault_rxck (f : FaultBit) (s : State) : (raiseFault f s).rxck = s.rxck := rfl
@[simp] theorem raiseFault_flen (f : FaultBit) (s : State) : (raiseFault f s).flen = s.flen := rfl
@[simp] theorem raiseFault_kind (f : FaultBit) (s : State) : (raiseFault f s).kind = s.kind := rfl
@[simp] theorem raiseFault_err (f : FaultBit) (s : State) : (raiseFault f s).err = s.err := rfl
@[simp] theorem raiseFault_buf (f : FaultBit) (s : State) : (raiseFault f s).buf = s.buf := rfl
@[simp] theorem raiseFault_txBusy (f : FaultBit) (s : State) : (raiseFault f s).txBusy = s.txBusy := rfl
@[simp] theorem raiseFault_txRem (f : FaultBit) (s : State) : (raiseFault f s).txRem = s.txRem := rfl
@[simp] theorem raiseFault_tck (f : FaultBit) (s : State) : (raiseFault f s).tck = s.tck := rfl
@[simp] theorem raiseFault_fault (f : FaultBit) (s : State) : (raiseFault f s).fault = s.fault ||| BitVec.twoPow 8 f.index := rfl
@[simp] theorem raiseFault_rxq (f : FaultBit) (s : State) : (raiseFault f s).rxq = s.rxq := rfl
@[simp] theorem raiseFault_txlog (f : FaultBit) (s : State) : (raiseFault f s).txlog = s.txlog := rfl
@[simp] theorem raiseFault_now (f : FaultBit) (s : State) : (raiseFault f s).now = s.now := rfl
@[simp] theorem raiseFault_resp (f : FaultBit) (s : State) : (raiseFault f s).resp = s.resp := rfl
@[simp] theorem raiseFault_wait (f : FaultBit) (s : State) : (raiseFault f s).wait = s.wait := rfl
@[simp] theorem raiseFault_agenda (f : FaultBit) (s : State) : (raiseFault f s).agenda = s.agenda := rfl
@[simp] theorem raiseFault_draws (f : FaultBit) (s : State) : (raiseFault f s).draws = s.draws := rfl

@[simp] theorem resetSession_cfg (s : State) : (resetSession s).cfg = s.cfg := rfl
@[simp] theorem resetSession_pos (s : State) : (resetSession s).pos = 0#16 := rfl
@[simp] theorem resetSession_esc (s : State) : (resetSession s).esc = false := rfl
@[simp] theorem resetSession_rck (s : State) : (resetSession s).rck = 0#8 := rfl
@[simp] theorem resetSession_lenMsb (s : State) : (resetSession s).lenMsb = s.lenMsb := rfl
@[simp] theorem resetSession_lenLsb (s : State) : (resetSession s).lenLsb = s.lenLsb := rfl
@[simp] theorem resetSession_tag (s : State) : (resetSession s).tag = s.tag := rfl
@[simp] theorem resetSession_rxck (s : State) : (resetSession s).rxck = s.rxck := rfl
@[simp] theorem resetSession_flen (s : State) : (resetSession s).flen = s.flen := rfl
@[simp] theorem resetSession_kind (s : State) : (resetSession s).kind = s.kind := rfl
@[simp] theorem resetSession_err (s : State) : (resetSession s).err = s.err := rfl
@[simp] theorem resetSession_buf (s : State) : (resetSession s).buf = s.buf := rfl
@[simp] theorem resetSession_txBusy (s : State) : (resetSession s).txBusy = s.txBusy := rfl
@[simp] theorem resetSession_txRem (s : State) : (resetSession s).txRem = s.txRem := rfl
@[simp] theorem resetSession_tck (s : State) : (resetSession s).tck = s.tck := rfl
@[simp] theorem resetSession_fault (s : State) : (resetSession s).fault = s.fault := rfl
@[simp] theorem resetSession_rxq (s : State) : (resetSession s).rxq = s.rxq := rfl
@[simp] theorem resetSession_txlog (s : State) : (resetSession s).txlog = s.txlog := rfl
@[simp] theorem resetSession_now (s : State) : (resetSession s).now = s.now := rfl
@[simp] theorem resetSession_resp (s : State) : (resetSession s).resp = s.resp := rfl
@[simp] theorem resetSession_wait (s : State) : (resetSession s).wait = s.wait := rfl
@[simp] theorem resetSession_agenda (s : State) : (resetSession s).agenda = s.agenda := rfl
@[simp] theorem resetSession_draws (s : State) : (resetSession s).draws = s.draws := rfl

@[simp] theorem finish_cfg (k : Kind) (e : Err) (s : State) : (finish k e s).cfg = s.cfg := rfl
@[simp] theorem finish_pos (k : Kind) (e : Err) (s : State) : (finish k e s).pos = 0#16 := rfl
@[simp] theorem finish_esc (k : Kind) (e : Err) (s : State) : (finish k e s).esc = false := rfl
@[simp] theorem finish_rck (k : Kind) (e : Err) (s : State) : (finish k e s).rck = 0#8 := rfl
@[simp] theorem finish_lenMsb (k : Kind) (e : Err) (s : State) : (finish k e s).lenMsb = s.lenMsb := rfl
@[simp] theorem finish_lenLsb (k : Kind) (e : Err) (s : State) : (finish k e s).lenLsb = s.lenLsb := rfl
@[simp] theorem finish_tag (k : Kind) (e : Err) (s : State) : (finish k e s).tag = s.tag := rfl
@[simp] theorem finish_rxck (k : Kind) (e : Err) (s : State) : (finish k e s).rxck = s.rxck := rfl
@[simp] theorem finish_flen (k : Kind) (e : Err) (s : State) : (finish k e s).flen = BitVec.ofNat 16 (written s.pos.toNat) := rfl
@[simp] theorem finish_kind (k : Kind) (e : Err) (s : State) : (finish k e s).kind = k := rfl
@[simp] theorem finish_err (k : Kind) (e : Err) (s : State) : (finish k e s).err = e := rfl
@[simp] theorem finish_buf (k : Kind) (e : Err) (s : State) : (finish k e s).buf = s.buf := rfl
@[simp] theorem finish_txBusy (k : Kind) (e : Err) (s : State) : (finish k e s).txBusy = s.txBusy := rfl
@[simp] theorem finish_txRem (k : Kind) (e : Err) (s : State) : (finish k e s).txRem = s.txRem := rfl
@[simp] theorem finish_tck (k : Kind) (e : Err) (s : State) : (finish k e s).tck = s.tck := rfl
@[simp] theorem finish_fault (k : Kind) (e : Err) (s : State) : (finish k e s).fault = s.fault := rfl
@[simp] theorem finish_rxq (k : Kind) (e : Err) (s : State) : (finish k e s).rxq = s.rxq := rfl
@[simp] theorem finish_txlog (k : Kind) (e : Err) (s : State) : (finish k e s).txlog = s.txlog := rfl
@[simp] theorem finish_now (k : Kind) (e : Err) (s : State) : (finish k e s).now = s.now := rfl
@[simp] theorem finish_resp (k : Kind) (e : Err) (s : State) : (finish k e s).resp = s.resp := rfl
@[simp] theorem finish_wait (k : Kind) (e : Err) (s : State) : (finish k e s).wait = s.wait := rfl
@[simp] theorem finish_agenda (k : Kind) (e : Err) (s : State) : (finish k e s).agenda = s.agenda := rfl
@[simp] theorem finish_draws (k : Kind) (e : Err) (s : State) : (finish k e s).draws = s.draws := rfl

@[simp] theorem respondFree_cfg (s : State) : (respondFree s).cfg = s.cfg := rfl
@[simp] theorem respondFree_pos (s : State) : (respondFree s).pos = s.pos := rfl
@[simp] theorem respondFree_esc (s : State) : (respondFree s).esc = s.esc := rfl
@[simp] theorem respondFree_rck (s : State) : (respondFree s).rck = s.rck := rfl
@[simp] theorem respondFree_lenMsb (s : State) : (respondFree s).lenMsb = s.lenMsb := rfl
@[simp] theorem respondFree_lenLsb (s : State) : (respondFree s).lenLsb = s.lenLsb := rfl
@[simp] theorem respondFree_tag (s : State) : (respondFree s).tag = s.tag := rfl
@[simp] theorem respondFree_rxck (s : State) : (respondFree s).rxck = s.rxck := rfl
@[simp] theorem respondFree_flen (s : State) : (respondFree s).flen = s.flen := rfl
@[simp] theorem respondFree_kind (s : State) : (respondFree s).kind = s.kind := rfl
@[simp] theorem respondFree_err (s : State) : (respondFree s).err = s.err := rfl
@[simp] theorem respondFree_buf (s : State) : (respondFree s).buf = s.buf := rfl
@[simp] theorem respondFree_txBusy (s : State) : (respondFree s).txBusy = s.txBusy := rfl
@[simp] theorem respondFree_txRem (s : State) : (respondFree s).txRem = s.txRem := rfl
@[simp] theorem respondFree_tck (s : State) : (respondFree s).tck = s.tck := rfl
@[simp] theorem respondFree_fault (s : State) : (respondFree s).fault = s.fault := rfl
@[simp] theorem respondFree_rxq (s : State) : (respondFree s).rxq = s.rxq := rfl
@[simp] theorem respondFree_txlog (s : State) : (respondFree s).txlog = s.txlog := rfl
@[simp] theorem respondFree_now (s : State) : (respondFree s).now = s.now := rfl
@[simp] theorem respondFree_resp (s : State) : (respondFree s).resp = some (Config.freeWord s.draws) := rfl
@[simp] theorem respondFree_wait (s : State) : (respondFree s).wait = s.wait := rfl
@[simp] theorem respondFree_agenda (s : State) : (respondFree s).agenda = s.agenda := rfl
@[simp] theorem respondFree_draws (s : State) : (respondFree s).draws = s.draws + 1 := rfl

@[simp] theorem applyEnv_cfg (e : EnvMove) (s : State) : (applyEnv e s).cfg = s.cfg := rfl
@[simp] theorem applyEnv_pos (e : EnvMove) (s : State) : (applyEnv e s).pos = s.pos := rfl
@[simp] theorem applyEnv_esc (e : EnvMove) (s : State) : (applyEnv e s).esc = s.esc := rfl
@[simp] theorem applyEnv_rck (e : EnvMove) (s : State) : (applyEnv e s).rck = s.rck := rfl
@[simp] theorem applyEnv_lenMsb (e : EnvMove) (s : State) : (applyEnv e s).lenMsb = s.lenMsb := rfl
@[simp] theorem applyEnv_lenLsb (e : EnvMove) (s : State) : (applyEnv e s).lenLsb = s.lenLsb := rfl
@[simp] theorem applyEnv_tag (e : EnvMove) (s : State) : (applyEnv e s).tag = s.tag := rfl
@[simp] theorem applyEnv_rxck (e : EnvMove) (s : State) : (applyEnv e s).rxck = s.rxck := rfl
@[simp] theorem applyEnv_flen (e : EnvMove) (s : State) : (applyEnv e s).flen = s.flen := rfl
@[simp] theorem applyEnv_kind (e : EnvMove) (s : State) : (applyEnv e s).kind = s.kind := rfl
@[simp] theorem applyEnv_err (e : EnvMove) (s : State) : (applyEnv e s).err = s.err := rfl
@[simp] theorem applyEnv_buf (e : EnvMove) (s : State) : (applyEnv e s).buf = s.buf := rfl
@[simp] theorem applyEnv_txBusy (e : EnvMove) (s : State) : (applyEnv e s).txBusy = s.txBusy := rfl
@[simp] theorem applyEnv_txRem (e : EnvMove) (s : State) : (applyEnv e s).txRem = s.txRem := rfl
@[simp] theorem applyEnv_tck (e : EnvMove) (s : State) : (applyEnv e s).tck = s.tck := rfl
@[simp] theorem applyEnv_fault (e : EnvMove) (s : State) : (applyEnv e s).fault = s.fault := rfl
@[simp] theorem applyEnv_rxq (e : EnvMove) (s : State) : (applyEnv e s).rxq = s.rxq ++ e.arrive := rfl
@[simp] theorem applyEnv_txlog (e : EnvMove) (s : State) : (applyEnv e s).txlog = s.txlog.drop e.drain := rfl
@[simp] theorem applyEnv_now (e : EnvMove) (s : State) : (applyEnv e s).now = s.now + e.advance := rfl
@[simp] theorem applyEnv_resp (e : EnvMove) (s : State) : (applyEnv e s).resp = s.resp := rfl
@[simp] theorem applyEnv_wait (e : EnvMove) (s : State) : (applyEnv e s).wait = s.wait := rfl
@[simp] theorem applyEnv_agenda (e : EnvMove) (s : State) : (applyEnv e s).agenda = s.agenda := rfl
@[simp] theorem applyEnv_draws (e : EnvMove) (s : State) : (applyEnv e s).draws = s.draws := rfl

@[simp] theorem resetBlock_cfg (s : State) : (resetBlock s).cfg = s.cfg := rfl
@[simp] theorem resetBlock_pos (s : State) : (resetBlock s).pos = 0#16 := rfl
@[simp] theorem resetBlock_esc (s : State) : (resetBlock s).esc = false := rfl
@[simp] theorem resetBlock_rck (s : State) : (resetBlock s).rck = 0#8 := rfl
@[simp] theorem resetBlock_lenMsb (s : State) : (resetBlock s).lenMsb = 0#8 := rfl
@[simp] theorem resetBlock_lenLsb (s : State) : (resetBlock s).lenLsb = 0#8 := rfl
@[simp] theorem resetBlock_tag (s : State) : (resetBlock s).tag = 0#8 := rfl
@[simp] theorem resetBlock_rxck (s : State) : (resetBlock s).rxck = 0#8 := rfl
@[simp] theorem resetBlock_flen (s : State) : (resetBlock s).flen = 0#16 := rfl
@[simp] theorem resetBlock_kind (s : State) : (resetBlock s).kind = .none := rfl
@[simp] theorem resetBlock_err (s : State) : (resetBlock s).err = .none := rfl
@[simp] theorem resetBlock_buf (s : State) : (resetBlock s).buf = [] := rfl
@[simp] theorem resetBlock_txBusy (s : State) : (resetBlock s).txBusy = false := rfl
@[simp] theorem resetBlock_txRem (s : State) : (resetBlock s).txRem = 0#16 := rfl
@[simp] theorem resetBlock_tck (s : State) : (resetBlock s).tck = 0#8 := rfl
@[simp] theorem resetBlock_fault (s : State) : (resetBlock s).fault = s.fault := rfl
@[simp] theorem resetBlock_rxq (s : State) : (resetBlock s).rxq = s.rxq := rfl
@[simp] theorem resetBlock_txlog (s : State) : (resetBlock s).txlog = s.txlog := rfl
@[simp] theorem resetBlock_now (s : State) : (resetBlock s).now = s.now := rfl
@[simp] theorem resetBlock_resp (s : State) : (resetBlock s).resp = none := rfl
@[simp] theorem resetBlock_wait (s : State) : (resetBlock s).wait = none := rfl
@[simp] theorem resetBlock_agenda (s : State) : (resetBlock s).agenda = s.agenda := rfl
@[simp] theorem resetBlock_draws (s : State) : (resetBlock s).draws = s.draws := rfl

@[simp] theorem release_cfg (s : State) : (release s).cfg = s.cfg := by
  unfold release; split <;> rfl
@[simp] theorem release_pos (s : State) : (release s).pos = s.pos := by
  unfold release; split <;> rfl
@[simp] theorem release_esc (s : State) : (release s).esc = s.esc := by
  unfold release; split <;> rfl
@[simp] theorem release_rck (s : State) : (release s).rck = s.rck := by
  unfold release; split <;> rfl
@[simp] theorem release_lenMsb (s : State) : (release s).lenMsb = s.lenMsb := by
  unfold release; split <;> rfl
@[simp] theorem release_lenLsb (s : State) : (release s).lenLsb = s.lenLsb := by
  unfold release; split <;> rfl
@[simp] theorem release_tag (s : State) : (release s).tag = s.tag := by
  unfold release; split <;> rfl
@[simp] theorem release_rxck (s : State) : (release s).rxck = s.rxck := by
  unfold release; split <;> rfl
@[simp] theorem release_flen (s : State) : (release s).flen = s.flen := by
  unfold release; split <;> rfl
@[simp] theorem release_buf (s : State) : (release s).buf = s.buf := by
  unfold release; split <;> rfl
@[simp] theorem release_txBusy (s : State) : (release s).txBusy = s.txBusy := by
  unfold release; split <;> rfl
@[simp] theorem release_txRem (s : State) : (release s).txRem = s.txRem := by
  unfold release; split <;> rfl
@[simp] theorem release_tck (s : State) : (release s).tck = s.tck := by
  unfold release; split <;> rfl
@[simp] theorem release_fault (s : State) : (release s).fault = s.fault := by
  unfold release; split <;> rfl
@[simp] theorem release_rxq (s : State) : (release s).rxq = s.rxq := by
  unfold release; split <;> rfl
@[simp] theorem release_txlog (s : State) : (release s).txlog = s.txlog := by
  unfold release; split <;> rfl
@[simp] theorem release_now (s : State) : (release s).now = s.now := by
  unfold release; split <;> rfl
@[simp] theorem release_resp (s : State) : (release s).resp = s.resp := by
  unfold release; split <;> rfl
@[simp] theorem release_wait (s : State) : (release s).wait = s.wait := by
  unfold release; split <;> rfl
@[simp] theorem release_agenda (s : State) : (release s).agenda = s.agenda := by
  unfold release; split <;> rfl
@[simp] theorem release_draws (s : State) : (release s).draws = s.draws := by
  unfold release; split <;> rfl
@[simp] theorem release_kind (s : State) : (release s).kind = .none := by
  unfold release; split <;> simp_all
theorem release_err (s : State) : (release s).err = if s.kind ≠ .none then .none else s.err := by
  unfold release; split <;> rfl
theorem release_of_none {s : State} (h : s.kind = .none) : release s = s := by
  simp [release, h]

end Sys2Proof.Machine
end

