-- ==== Sys2Proof/Laws/Decoder.lean ====
section
/-! SUPPORT. What the per-byte step and the decoding loop can do, said once. -/

namespace Sys2Proof.Machine

/-- DECLEN as a number. -/
theorem declen_toNat (s : State) : (declen s).toNat = 256 * s.lenMsb.toNat + s.lenLsb.toNat := by
  have : (declen s).toNat = (s.lenMsb ++ s.lenLsb).toNat := rfl
  rw [this, toNat_append_add]; omega

/-- (inversion) what an unstuffed byte `d` at POS > 0 can lead to. -/
inductive DataByteCases (d : Byte) (s : State) : State → Prop where
  | lenMsb (h : s.pos = 1#16) : DataByteCases d s { s with esc := false, lenMsb := d, pos := 2#16 }
  | lenLsb (h : s.pos = 2#16) : DataByteCases d s { s with esc := false, lenLsb := d, pos := 3#16 }
  | tag (h : s.pos = 3#16) : DataByteCases d s { s with esc := false, rck := ckAdd s.rck d, tag := d, pos := 4#16 }
  | complete (h4 : 4 ≤ s.pos.toNat) (h : s.pos.toNat = (declen s).toNat + 3)
      (hr : ckAdd s.rck d = 0xFF#8) : DataByteCases d s (finish .complete .none { s with rxck := d })
  | checksumFailure (h4 : 4 ≤ s.pos.toNat) (h : s.pos.toNat = (declen s).toNat + 3)
      (hr : ckAdd s.rck d ≠ 0xFF#8) : DataByteCases d s (finish .failed .checksumFailure { s with rxck := d })
  | oversize (h4 : 4 ≤ s.pos.toNat) (h : s.pos.toNat ≠ (declen s).toNat + 3)
      (hc : frameCap s ≤ s.pos.toNat - 4) : DataByteCases d s (finish .failed .frameTooLarge s)
  | store (h4 : 4 ≤ s.pos.toNat) (h : s.pos.toNat ≠ (declen s).toNat + 3)
      (hc : s.pos.toNat - 4 < frameCap s) :
      DataByteCases d s { s with esc := false, rck := ckAdd s.rck d, buf := bufWrite s.buf (storeIndex s) d, pos := s.pos + 1#16 }

theorem dispatchByte_cases (d : Byte) (s : State) (h0 : s.pos ≠ 0#16) :
    DataByteCases d s (dispatchByte d (accumulate d (clearEsc s))) := by
  have hn0 : s.pos.toNat ≠ 0 := fun h => h0 (BitVec.eq_of_toNat_eq (by simpa using h))
  by_cases h1 : s.pos = 1#16
  · simpa [h1, clearEsc, accumulate, dispatchByte, stepLenMsb] using DataByteCases.lenMsb (d := d) h1
  by_cases h2 : s.pos = 2#16
  · simpa [h2, clearEsc, accumulate, dispatchByte, stepLenLsb] using DataByteCases.lenLsb (d := d) h2
  by_cases h3 : s.pos = 3#16
  · simpa [h3, clearEsc, accumulate, dispatchByte, stepTag] using DataByteCases.tag (d := d) h3
  have hn1 : s.pos.toNat ≠ 1 := fun h => h1 (BitVec.eq_of_toNat_eq (by simpa using h))
  have hn2 : s.pos.toNat ≠ 2 := fun h => h2 (BitVec.eq_of_toNat_eq (by simpa using h))
  have hn3 : s.pos.toNat ≠ 3 := fun h => h3 (BitVec.eq_of_toNat_eq (by simpa using h))
  have h4 : 4 ≤ s.pos.toNat := by omega
  have h3' : 3 ≤ s.pos.toNat := by omega
  simp only [clearEsc, accumulate, h3', if_true, dispatchByte, h1, h2, h3, if_false]
  by_cases hc : s.pos.toNat = (declen s).toNat + 3
  · rw [if_pos (by exact hc)]
    unfold stepChecksum
    split
    · next hr => exact .complete h4 hc hr
    · next hr => exact .checksumFailure h4 hc hr
  · rw [if_neg (by exact hc)]
    by_cases hz : frameCap s ≤ s.pos.toNat - 4
    · rw [if_pos (by exact hz)]; exact .oversize h4 hc hz
    · rw [if_neg (by exact hz)]; exact .store h4 hc (by omega)

/-- (inversion) everything `rxStep` can do. -/
theorem rxStep_cases (b : Byte) (s : State) :
    (s.pos = 0#16 ∧ b = startByte ∧ rxStep b s = { s with pos := 1#16, rck := 0#8, esc := false }) ∨
    (s.pos = 0#16 ∧ b ≠ startByte ∧ rxStep b s = s) ∨
    (s.pos ≠ 0#16 ∧ b = startByte ∧ rxStep b s = stepRestart s) ∨
    (s.pos ≠ 0#16 ∧ b = escByte ∧ s.esc = false ∧ rxStep b s = { s with esc := true }) ∨
    (b ≠ startByte ∧ ¬(s.esc = false ∧ b = escByte) ∧ DataByteCases (unstuffed b s) s (rxStep b s)) := by
  by_cases h0 : s.pos = 0#16
  · by_cases hb : b = startByte <;> simp [rxStep, h0, hb, stepIdle]
  by_cases hb : b = startByte
  · simp [rxStep, h0, hb]
  by_cases he : s.esc = false ∧ b = escByte
  · simp [rxStep, h0, he, stepEscape, escByte, startByte]
  right; right; right; right
  refine ⟨hb, he, ?_⟩
  have hr : rxStep b s = dispatchByte (unstuffed b s) (accumulate (unstuffed b s) (clearEsc s)) := by
    simp [rxStep, h0, hb, he]
  rw [hr]
  exact dispatchByte_cases _ s h0

/-- The fields that the decoder's byte step never writes. -/
structure SameOutsideDecoder (s t : State) : Prop where
  cfg : t.cfg = s.cfg
  txBusy : t.txBusy = s.txBusy
  txRem : t.txRem = s.txRem
  tck : t.tck = s.tck
  fault : t.fault = s.fault
  txlog : t.txlog = s.txlog
  now : t.now = s.now
  resp : t.resp = s.resp
  wait : t.wait = s.wait
  agenda : t.agenda = s.agenda
  draws : t.draws = s.draws

theorem SameOutsideDecoder.refl (s : State) : SameOutsideDecoder s s := by constructor <;> rfl

theorem SameOutsideDecoder.trans {s t u : State} (h : SameOutsideDecoder s t)
    (g : SameOutsideDecoder t u) : SameOutsideDecoder s u :=
  ⟨g.1.trans h.1, g.2.trans h.2, g.3.trans h.3, g.4.trans h.4, g.5.trans h.5, g.6.trans h.6,
    g.7.trans h.7, g.8.trans h.8, g.9.trans h.9, g.10.trans h.10, g.11.trans h.11⟩

theorem stepRestart_eq (s : State) : stepRestart s =
    { finish .failed .unexpectedRestart s with
      pos := if s.cfg.restart = .resync then 1#16 else 0#16 } := by
  unfold stepRestart
  cases s.cfg.restart <;> simp [finish, resetSession]

theorem rxStep_sameOutside (b : Byte) (s : State) : SameOutsideDecoder s (rxStep b s) := by
  rcases rxStep_cases b s with ⟨_, _, h⟩ | ⟨_, _, h⟩ | ⟨_, _, h⟩ | ⟨_, _, _, h⟩ | ⟨_, _, h⟩
  case inr.inr.inl => rw [h, stepRestart_eq]; constructor <;> rfl
  case inr.inr.inr.inr => generalize rxStep b s = t at h; cases h <;> constructor <;> rfl
  all_goals rw [h]; constructor <;> rfl

theorem rxStep_rxq (b : Byte) (s : State) : (rxStep b s).rxq = s.rxq := by
  rcases rxStep_cases b s with ⟨_, _, h⟩ | ⟨_, _, h⟩ | ⟨_, _, h⟩ | ⟨_, _, _, h⟩ | ⟨_, _, h⟩
  case inr.inr.inl => rw [h, stepRestart_eq]; rfl
  case inr.inr.inr.inr => generalize rxStep b s = t at h; cases h <;> rfl
  all_goals rw [h]

/-- The decoder's registers of `s` with everything else of `o`. -/
def graft (s o : State) : State :=
  { o with
    pos := s.pos
    esc := s.esc
    rck := s.rck
    lenMsb := s.lenMsb
    lenLsb := s.lenLsb
    tag := s.tag
    rxck := s.rxck
    flen := s.flen
    kind := s.kind
    err := s.err
    buf := s.buf }

theorem finish_graft (k : Kind) (e : Err) (s o : State) :
    finish k e (graft s o) = graft (finish k e s) o := rfl

theorem stepRestart_graft {s o : State} (h : o.cfg = s.cfg) :
    stepRestart (graft s o) = graft (stepRestart s) o := by
  unfold stepRestart
  rw [show (graft s o).cfg = s.cfg from h]
  cases s.cfg.restart <;> rfl

theorem stepIdle_graft (b : Byte) (s o : State) :
    stepIdle b (graft s o) = graft (stepIdle b s) o := by
  unfold stepIdle; split <;> rfl

theorem accumulate_graft (d : Byte) (s o : State) :
    accumulate d (graft s o) = graft (accumulate d s) o := by
  unfold accumulate
  rw [show (graft s o).pos = s.pos from rfl]
  split <;> rfl

theorem stepChecksum_graft (d : Byte) (s o : State) :
    stepChecksum d (graft s o) = graft (stepChecksum d s) o := by
  unfold stepChecksum
  rw [show (graft s o).rck = s.rck from rfl]
  split <;> rfl

theorem dispatchByte_graft (d : Byte) {s o : State} (h : o.cfg = s.cfg) :
    dispatchByte d (graft s o) = graft (dispatchByte d s) o := by
  unfold dispatchByte
  rw [show (graft s o).pos = s.pos from rfl, show declen (graft s o) = declen s from rfl,
    show frameCap (graft s o) = frameCap s by unfold frameCap; rw [show (graft s o).cfg = s.cfg from h],
    stepChecksum_graft]
  split; · rfl
  split; · rfl
  split; · rfl
  split; · rfl
  split <;> rfl

theorem rxStep_graft (b : Byte) {s o : State} (h : o.cfg = s.cfg) :
    rxStep b (graft s o) = graft (rxStep b s) o := by
  unfold rxStep
  rw [show (graft s o).pos = s.pos from rfl, show (graft s o).esc = s.esc from rfl,
    show unstuffed b (graft s o) = unstuffed b s from rfl, stepIdle_graft, stepRestart_graft h,
    show clearEsc (graft s o) = graft (clearEsc s) o from rfl,
    accumulate_graft, dispatchByte_graft]
  · split; · rfl
    split; · rfl
    split <;> rfl
  · unfold accumulate clearEsc; split <;> exact h

/-- The decoder does not look at RXQ. -/
theorem rxStep_with_rxq (b : Byte) (s : State) (q : List Byte) :
    rxStep b { s with rxq := q } = { rxStep b s with rxq := q } := by
  have h := rxStep_sameOutside b s
  rw [show ({ s with rxq := q } : State) = graft s { s with rxq := q } from rfl,
    rxStep_graft b (s := s) (o := { s with rxq := q }) rfl]
  cases ht : rxStep b s
  rw [ht] at h
  obtain ⟨h1, h2, h3, h4, h5, h6, h7, h8, h9, h10, h11⟩ := h
  simp_all [graft]

theorem pollBytes_preserves {P : State → Prop} (hq : ∀ s q, P s → P { s with rxq := q })
    (hx : ∀ b s, s.kind = .none → P s → P (rxStep b s)) :
    ∀ (q : List Byte) (s : State), P s → P (pollBytes q s)
  | [], s, h => h
  | b :: q, s, h => by
    unfold pollBytes
    split
    · next hk => exact pollBytes_preserves hq hx q _ (hx b _ hk (hq s q h))
    · exact h

theorem pollBytes_sameOutside (q : List Byte) (s : State) :
    SameOutsideDecoder s (pollBytes q s) :=
  pollBytes_preserves (P := SameOutsideDecoder s)
    (fun _ _ h => ⟨h.1, h.2, h.3, h.4, h.5, h.6, h.7, h.8, h.9, h.10, h.11⟩)
    (fun b t _ h => h.trans (rxStep_sameOutside b t)) q s (.refl s)

theorem pollBytes_held {s : State} (h : s.kind ≠ .none) (q : List Byte) : pollBytes q s = s := by
  cases q <;> simp [pollBytes, h]

theorem pollBytes_cons {s : State} (h : s.kind = .none) (b : Byte) (q : List Byte) :
    pollBytes (b :: q) s = pollBytes q (rxStep b { s with rxq := q }) := by
  simp [pollBytes, h]

end Sys2Proof.Machine
end

