-- ==== Sys2Proof/Laws/Feed.lean ====
section
/-! SUPPORT. RX_BYTE over a list and RX_POLL's loop are both one function of the bytes, `feed`. -/

namespace Sys2Proof.Machine

/-- What RX_BYTE of a byte does to the block, but for the response: `rx_step` while KIND = NONE, and
nothing while a result is held (rule R180). -/
def offerByte (b : Byte) (s : State) : State := if s.kind ≠ .none then s else rxStep b s

/-- The bytes of a list offered to the decoder one by one. -/
def feed (bs : List Byte) (s : State) : State := bs.foldl (fun t b => offerByte b t) s

@[simp] theorem feed_nil (s : State) : feed [] s = s := rfl
@[simp] theorem feed_cons (b : Byte) (bs : List Byte) (s : State) :
    feed (b :: bs) s = feed bs (offerByte b s) := rfl

theorem feed_append (a b : List Byte) (s : State) : feed (a ++ b) s = feed b (feed a s) := by
  simp [feed]

theorem offerByte_held {s : State} (h : s.kind ≠ .none) (b : Byte) : offerByte b s = s := by
  simp [offerByte, h]

theorem offerByte_idle {s : State} (h : s.kind = .none) (b : Byte) :
    offerByte b s = rxStep b s := by
  simp [offerByte, h]

theorem feed_held {s : State} (h : s.kind ≠ .none) (bs : List Byte) : feed bs s = s := by
  induction bs with
  | nil => rfl
  | cons b bs ih => simp [offerByte_held h, ih]

theorem offerByte_graft (b : Byte) {s o : State} (h : o.cfg = s.cfg) :
    offerByte b (graft s o) = graft (offerByte b s) o := by
  by_cases hk : s.kind = .none
  · rw [offerByte_idle (show (graft s o).kind = .none from hk), offerByte_idle hk, rxStep_graft b h]
  · rw [offerByte_held (show (graft s o).kind ≠ .none from hk), offerByte_held hk]

theorem offerByte_sameOutside (b : Byte) (s : State) : SameOutsideDecoder s (offerByte b s) := by
  unfold offerByte; split
  · exact .refl s
  · exact rxStep_sameOutside b s

theorem offerByte_rxq (b : Byte) (s : State) : (offerByte b s).rxq = s.rxq := by
  unfold offerByte; split
  · rfl
  · exact rxStep_rxq b s

theorem feed_graft (bs : List Byte) {s o : State} (h : o.cfg = s.cfg) :
    feed bs (graft s o) = graft (feed bs s) o := by
  induction bs generalizing s with
  | nil => rfl
  | cons b bs ih =>
    rw [feed_cons, feed_cons, offerByte_graft b h]
    exact ih (h.trans (offerByte_sameOutside b s).cfg.symm)

theorem feed_sameOutside (bs : List Byte) (s : State) : SameOutsideDecoder s (feed bs s) := by
  induction bs generalizing s with
  | nil => exact .refl s
  | cons b bs ih => exact (offerByte_sameOutside b s).trans (ih _)

theorem feed_rxq (bs : List Byte) (s : State) : (feed bs s).rxq = s.rxq := by
  induction bs generalizing s with
  | nil => rfl
  | cons b bs ih => rw [feed_cons, ih, offerByte_rxq]

/-- The decoder's bytes leave the rest of the state to the one who holds it. -/
theorem graft_feed_eq (bs : List Byte) (s : State) : feed bs s = graft (feed bs s) s := by
  have h := feed_sameOutside bs s
  have hq := feed_rxq bs s
  generalize feed bs s = t at *
  cases t
  obtain ⟨h1, h2, h3, h4, h5, h6, h7, h8, h9, h10, h11⟩ := h
  simp_all [graft]

theorem feed_with_resp (bs : List Byte) (s : State) (r : Option Word) :
    feed bs { s with resp := r } = { feed bs s with resp := r } := by
  refine (feed_graft bs (s := s) (o := { s with resp := r }) rfl).trans ?_
  conv_rhs => rw [graft_feed_eq bs s]
  rfl

theorem feed_with_rxq (bs : List Byte) (s : State) (q : List Byte) :
    feed bs { s with rxq := q } = { feed bs s with rxq := q } := by
  refine (feed_graft bs (s := s) (o := { s with rxq := q }) rfl).trans ?_
  conv_rhs => rw [graft_feed_eq bs s]
  rfl

/-- Everything RX_BYTE can do. -/
theorem giveByte_eq (b : Byte) (s : State) :
    giveByte b s = { offerByte b s with
      resp := some (statusWord (offerByte b s) (decide (s.kind = .none))) } := by
  by_cases h : s.kind = .none <;> simp [giveByte, h, offerByte, respond]

theorem exec_rxByte_eq (b : Byte) (s : State) :
    ∃ r, exec (.rxByte b) s = .next { offerByte b s with resp := some r } :=
  ⟨_, congrArg _ (giveByte_eq b s)⟩

/-- RX_BYTE over a list is `feed`, but for the response. -/
theorem runAll_rxByte (bs : List Byte) (s : State) :
    ∃ r, runAll (bs.map .rxByte) s = .next { feed bs s with resp := r } := by
  induction bs generalizing s with
  | nil => exact ⟨s.resp, rfl⟩
  | cons b bs ih =>
    obtain ⟨r, hr⟩ := exec_rxByte_eq b s
    obtain ⟨r', hr'⟩ := ih { offerByte b s with resp := some r }
    refine ⟨r', ?_⟩
    simp only [List.map_cons, runAll, hr, hr', feed_cons, feed_with_resp]

/-- RX_POLL's loop: the bytes up to a result or the end, by `feed`; the rest stays in RXQ. -/
theorem pollBytes_eq_feed (q : List Byte) (s : State) :
    ∃ used left, q = used ++ left ∧
      pollBytes q { s with rxq := q } = { feed used s with rxq := left } ∧
      (left = [] ∨ (feed used s).kind ≠ .none) ∧
      ∀ k, k < used.length → (feed (used.take k) s).kind = .none := by
  induction q generalizing s with
  | nil => exact ⟨[], [], rfl, rfl, .inl rfl, by simp⟩
  | cons b q ih =>
    by_cases h : s.kind = .none
    · obtain ⟨used, left, rfl, hp, hl, hk⟩ := ih (rxStep b s)
      refine ⟨b :: used, left, rfl, ?_, ?_, ?_⟩
      · rw [pollBytes_cons (s := { s with rxq := b :: (used ++ left) }) h]
        simp only [feed_cons, offerByte_idle h]
        rw [← hp]
        congr 1
        exact rxStep_with_rxq b s _
      · simpa [offerByte_idle h] using hl
      · intro k hlt
        cases k with
        | zero => simpa using h
        | succ k => simpa [offerByte_idle h] using hk k (by simpa using hlt)
    · refine ⟨[], b :: q, rfl, ?_, .inr h, by simp⟩
      rw [pollBytes_held (s := { s with rxq := b :: q }) h]; rfl

theorem pollBody_eq_feed (s : State) :
    ∃ used left, s.rxq = used ++ left ∧ pollBody s = { feed used s with rxq := left } ∧
      (left = [] ∨ (feed used s).kind ≠ .none) ∧
      ∀ k, k < used.length → (feed (used.take k) s).kind = .none :=
  pollBytes_eq_feed s.rxq s

end Sys2Proof.Machine
end

