-- ==== Sys2Proof/Laws/Memory.lean ====
section
/-! SUPPORT. The laws of the Frame Buffer: read after write, and the canonical form. -/

namespace Sys2Proof.Machine

theorem bufRead_bufWrite_same (m : List Host.Cell) (i : Nat) (v : Byte) :
    bufRead (bufWrite m i v) i = some v := by
  induction m with
  | nil => simp [bufWrite, bufRead]
  | cons c m ih =>
    unfold bufWrite
    split
    · simp [bufRead]
    · split
      · simp [bufRead]
      · have : c.1 ≠ i := fun h => by simp_all
        simp [bufRead, this, ih]

theorem bufRead_bufWrite_other (m : List Host.Cell) {i j : Nat} (v : Byte) (h : j ≠ i) :
    bufRead (bufWrite m i v) j = bufRead m j := by
  induction m with
  | nil => simp [bufWrite, bufRead, h.symm]
  | cons c m ih =>
    unfold bufWrite
    split
    · simp [bufRead, h.symm]
    · split
      · next hc => simp [bufRead, ← hc, h.symm]
      · simp [bufRead, ih]

theorem bufWrite_all_lt (k : Nat) (m : List Host.Cell) (i : Nat) (v : Byte)
    (hm : m.all (fun d => decide (k < d.1)) = true) (hk : k < i) :
    (bufWrite m i v).all (fun d => decide (k < d.1)) = true := by
  induction m with
  | nil => simpa [bufWrite] using hk
  | cons c m ih =>
    simp only [List.all_cons, Bool.and_eq_true] at hm
    unfold bufWrite
    split
    · simp only [List.all_cons, Bool.and_eq_true, decide_eq_true_eq]
      exact ⟨hk, by simpa using hm⟩
    · split
      · simp only [List.all_cons, Bool.and_eq_true, decide_eq_true_eq]
        exact ⟨hk, hm.2⟩
      · simp only [List.all_cons, Bool.and_eq_true]
        exact ⟨hm.1, ih hm.2⟩

theorem bufWrite_wf (m : List Host.Cell) (i : Nat) (v : Byte) (hm : Memory.wf m = true) :
    Memory.wf (bufWrite m i v) = true := by
  induction m with
  | nil => rfl
  | cons c m ih =>
    have hm' := hm
    simp only [Memory.wf, Bool.and_eq_true] at hm
    unfold bufWrite
    split
    · next hi =>
      simp only [Memory.wf, Bool.and_eq_true, List.all_cons, decide_eq_true_eq]
      refine ⟨⟨hi, ?_⟩, hm⟩
      have := hm.1
      simp only [List.all_eq_true, decide_eq_true_eq] at this ⊢
      exact fun d hd => hi.trans (this d hd)
    · split
      · next hi => subst hi; simpa [Memory.wf] using hm
      · simp only [Memory.wf, Bool.and_eq_true]
        exact ⟨bufWrite_all_lt _ _ _ _ hm.1 (by omega), ih hm.2⟩

/-- The buffer's other operation, the reset of rule R342, leaves the canonical form. -/
theorem resetBlock_wf (s : State) : Memory.wf (resetBlock s).buf = true := rfl

/-- Reset memory lists nothing. -/
theorem reset_buf : State.reset.buf = [] := rfl

end Sys2Proof.Machine
end

