-- ==== Sys2Proof/Laws/PerInstr.lean ====
section
/-! SUPPORT. One statement per instruction, about its encoding: the bits that spec/opcode_table.json
fixes for its row. -/

namespace Sys2Proof.Laws.Encoding

/-- The row's size in bits, the lowest bit that the table fixes and the value of the fixed bits
(`fixed` of spec/opcode_table.json; WIRE_DATA's row fixes none). -/
def fixedBits : Instr → Nat × Nat × Nat
  | .nop => (32, 0, 0x0)
  | .rxByte _ => (32, 8, 0x100000)
  | .rxPoll => (32, 0, 0x20000000)
  | .rxWait _ => (32, 24, 0x30)
  | .rxAck => (32, 0, 0x40000000)
  | .rdStatus => (32, 0, 0x50000000)
  | .rdTag => (32, 0, 0x60000000)
  | .rdDeclen => (32, 0, 0x70000000)
  | .rdFlen => (32, 0, 0x80000000)
  | .rdCksum => (32, 0, 0x90000000)
  | .rdBuf _ => (32, 16, 0xA000)
  | .viewFor => (32, 0, 0xB0000000)
  | .txBegin _ _ => (32, 24, 0xC0)
  | .txData _ => (32, 8, 0xD00000)
  | .rdTxstat => (32, 0, 0xE0000000)
  | .reset => (32, 0, 0xF0000000)
  | .wireStart => (8, 0, 0x7E)
  | .wireEsc => (8, 0, 0x7D)
  | .wireXon => (8, 0, 0x11)
  | .wireXoff => (8, 0, 0x13)
  | .wireData _ => (8, 8, 0x0)

/-- A well-formed instruction is encoded in its row's size with the row's fixed bits. -/
def Statement (i : Instr) : Prop :=
  i.wf = true → ∃ w, w < 2 ^ (fixedBits i).1 ∧ encode i = tableUnit (fixedBits i).1 w ∧
    w / 2 ^ (fixedBits i).2.1 = (fixedBits i).2.2

/-- A command word is its own unit. -/
theorem tableUnit_command (w : Word) : tableUnit 32 w.toNat = .command w := by
  simp [tableUnit]

/-- A wire byte is its own unit. -/
theorem tableUnit_wire (b : Byte) : tableUnit 8 b.toNat = .wire b := by
  simp [tableUnit]

theorem nop : Statement (.nop) := fun _ => ⟨0x0, by decide, by decide, by decide⟩

theorem rxByte (b : Byte) : Statement (.rxByte b) := fun _ =>
  ⟨(wordFB 0x1#4 b).toNat, (wordFB 0x1#4 b).isLt, (tableUnit_command _).symm, by
    have := b.isLt
    simp [fixedBits, wordFB_toNat]; omega⟩

theorem rxPoll : Statement (.rxPoll) := fun _ => ⟨0x20000000, by decide, by decide, by decide⟩

theorem rxWait (t : Nat) : Statement (.rxWait t) := fun _ =>
  ⟨(wordFT 0x3#4 t).toNat, (wordFT 0x3#4 t).isLt, (tableUnit_command _).symm, by simp [fixedBits, wordFT_toNat]; omega⟩

theorem rxAck : Statement (.rxAck) := fun _ => ⟨0x40000000, by decide, by decide, by decide⟩

theorem rdStatus : Statement (.rdStatus) := fun _ => ⟨0x50000000, by decide, by decide, by decide⟩

theorem rdTag : Statement (.rdTag) := fun _ => ⟨0x60000000, by decide, by decide, by decide⟩

theorem rdDeclen : Statement (.rdDeclen) := fun _ => ⟨0x70000000, by decide, by decide, by decide⟩

theorem rdFlen : Statement (.rdFlen) := fun _ => ⟨0x80000000, by decide, by decide, by decide⟩

theorem rdCksum : Statement (.rdCksum) := fun _ => ⟨0x90000000, by decide, by decide, by decide⟩

theorem rdBuf (a : Nat) : Statement (.rdBuf a) := fun _ =>
  ⟨(wordFI 0xA#4 a).toNat, (wordFI 0xA#4 a).isLt, (tableUnit_command _).symm, by simp [fixedBits, wordFI_toNat]; omega⟩

theorem viewFor : Statement (.viewFor) := fun _ => ⟨0xB0000000, by decide, by decide, by decide⟩

theorem txBegin (tag : Byte) (n : Nat) : Statement (.txBegin tag n) := fun _ =>
  ⟨(wordFX 0xC#4 tag n).toNat, (wordFX 0xC#4 tag n).isLt, (tableUnit_command _).symm, by
    have := tag.isLt
    simp [fixedBits, wordFX_toNat]; omega⟩

theorem txData (b : Byte) : Statement (.txData b) := fun _ =>
  ⟨(wordFB 0xD#4 b).toNat, (wordFB 0xD#4 b).isLt, (tableUnit_command _).symm, by
    have := b.isLt
    simp [fixedBits, wordFB_toNat]; omega⟩

theorem rdTxstat : Statement (.rdTxstat) := fun _ => ⟨0xE0000000, by decide, by decide, by decide⟩

theorem reset : Statement (.reset) := fun _ => ⟨0xF0000000, by decide, by decide, by decide⟩

theorem wireStart : Statement (.wireStart) := fun _ => ⟨0x7E, by decide, by decide, by decide⟩

theorem wireEsc : Statement (.wireEsc) := fun _ => ⟨0x7D, by decide, by decide, by decide⟩

theorem wireXon : Statement (.wireXon) := fun _ => ⟨0x11, by decide, by decide, by decide⟩

theorem wireXoff : Statement (.wireXoff) := fun _ => ⟨0x13, by decide, by decide, by decide⟩

theorem wireData (b : Byte) : Statement (.wireData b) := fun _ =>
  ⟨b.toNat, b.isLt, (tableUnit_wire b).symm, Nat.div_eq_of_lt b.isLt⟩

end Sys2Proof.Laws.Encoding
end

