-- ==== Sys2Proof/Laws/Step.lean ====
section
/-! SUPPORT. What one step can do, said once, and the packaged induction: a predicate that every
shared operation keeps is kept by every step. -/

namespace Sys2Proof.Machine

/-- Everything a step that goes on can do. -/
theorem step_cases {s t : State} (h : step s = .next t) :
    t = s ∨
    (∃ e rest, s.agenda = .env e :: rest ∧ t = liftWait (applyEnv e { s with agenda := rest })) ∨
    (∃ w, s.wait = some w ∧ w.lifted = true ∧ t = waitIterate w s) ∨
    (∃ e i rest, s.wait = none ∧ s.agenda = .unit e :: rest ∧ decode e = .ok i ∧
      exec i { s with agenda := rest } = .next t) ∨
    (∃ e r rest, s.wait = none ∧ s.agenda = .unit e :: rest ∧ decode e = .error r ∧
      t = illegalCommand { s with agenda := rest }) := by
  unfold step turn at h
  cases hw : s.wait with
  | none =>
    cases ha : s.agenda with
    | nil => simp [hw, ha] at h; simp [h]
    | cons m rest =>
      cases m with
      | env e => simp [hw, ha] at h; simp [← h]
      | unit e =>
        cases hd : decode e with
        | ok i => simp [hw, ha, takeUnit, hd] at h; simp [hd, h]
        | error r => simp [hw, ha, takeUnit, hd] at h; simp [hd, ← h]
  | some w =>
    cases hl : w.lifted with
    | true => simp [hw, hl] at h; simp [hl, ← h]
    | false =>
      cases ha : s.agenda with
      | nil => simp [hw, ha, hl] at h; simp [h]
      | cons m rest =>
        cases m with
        | env e => simp [hw, ha, hl] at h; simp [← h]
        | unit e => simp [hw, ha, hl] at h; simp [h]

/-- The frame in progress is a matter of POS, BUF, TAG and RCK alone. -/
theorem CurrentFrame.congr {s t : State} {p : List Byte} (h : CurrentFrame s p) (hp : t.pos = s.pos)
    (hb : t.buf = s.buf) (ht : t.tag = s.tag) (hr : t.rck = s.rck) : CurrentFrame t p :=
  ⟨hp ▸ h.pos, hb ▸ h.buf, by rw [ht, hr]; exact h.rck⟩

theorem AccumInv.congr {s t : State} (h : AccumInv s) (hk : t.kind = s.kind) (hp : t.pos = s.pos)
    (hb : t.buf = s.buf) (ht : t.tag = s.tag) (hr : t.rck = s.rck) : AccumInv t := by
  intro h1 h2
  obtain ⟨p, h⟩ := h (hk ▸ h1) (hp ▸ h2)
  exact ⟨p, h.congr hp hb ht hr⟩

/-- A predicate that every shared operation keeps. The updates of the fields outside the block's
own registers are listed one by one, so an invariant of the registers discharges them by itself. -/
structure KeptByOps (P : State → Prop) : Prop where
  resp : ∀ s r, P s → P { s with resp := r }
  wait : ∀ s w, P s → P { s with wait := w }
  agenda : ∀ s a, P s → P { s with agenda := a }
  draws : ∀ s d, P s → P { s with draws := d }
  rxq : ∀ s q, P s → P { s with rxq := q }
  now : ∀ s n, P s → P { s with now := n }
  txlog : ∀ s l, P s → P { s with txlog := l }
  raise : ∀ s f, P s → P (raiseFault f s)
  rxStep : ∀ b s, s.kind = .none → P s → P (rxStep b s)
  release : ∀ s, P s → P (release s)
  session : ∀ s, s.kind = .none → P s → P (resetSession s)
  reset : ∀ s, P s → P (resetBlock s)
  beginFrame : ∀ tag n s, s.txBusy = false → n ≤ 0xFFFE → P s → P (beginFrame tag n s)
  dataByte : ∀ b s, s.txBusy = true → P s → P (dataByte b s)

theorem KeptByOps.pollBody {P : State → Prop} (k : KeptByOps P) {s : State} (h : P s) :
    P (pollBody s) := pollBytes_preserves k.rxq k.rxStep _ s h

theorem KeptByOps.waitIterate {P : State → Prop} (k : KeptByOps P) (w : Wait) {s : State}
    (h : P s) : P (waitIterate w s) := by
  have hp := k.pollBody h
  unfold Machine.waitIterate
  dsimp only
  split
  · exact k.wait _ none (k.resp _ (some _) hp)
  · next hk =>
    split
    · exact k.wait _ none (k.resp _ (some _) (k.session _ (by simpa using hk) hp))
    · exact k.resp _ none (k.wait _ (some { w with lifted := false }) hp)

theorem KeptByOps.exec {P : State → Prop} (k : KeptByOps P) (i : Instr) {s t : State}
    (h : P s) (he : exec i s = .next t) : P t := by
  have hresp : ∀ {u : State} (w : Word), P u → P (respond w u) := fun w hu => k.resp _ (some w) hu
  have hbyte : ∀ b, P (giveByte b s) := by
    intro b; unfold giveByte; split
    · exact hresp _ h
    · next hk => exact hresp _ (k.rxStep b s (by simpa using hk) h)
  cases i <;> simp only [Machine.exec] at he
  case rxByte b => cases he; exact hbyte _
  case rxPoll => cases he; exact hresp _ (k.pollBody (k.release s h))
  case rxWait n => cases he; exact k.waitIterate _ (k.release s h)
  case rxAck => cases he; exact hresp _ (k.release s h)
  case rdBuf n =>
    unfold execRdBuf at he
    split at he
    · cases he
      exact k.draws _ (s.draws + 1) (k.resp _ (some (Config.freeWord s.draws)) (k.raise s _ h))
    · split at he <;> cases he
      exact hresp _ h
  case txBegin tag n =>
    unfold execTxBegin at he
    split at he
    · cases he; exact hresp _ (k.raise s _ h)
    · next hb =>
      split at he <;> cases he
      · exact hresp _ (k.raise s _ h)
      · next hn =>
        exact hresp _ (k.beginFrame tag n s (by simpa using hb) (by simpa [txLenInRange] using hn) h)
  case txData b =>
    unfold execTxData at he
    split at he <;> cases he
    · exact hresp _ (k.raise s _ h)
    · next hb => exact hresp _ (k.dataByte b s (by simpa using hb) h)
  case reset => cases he; exact hresp _ (k.reset s h)
  case wireStart => cases he; exact hbyte _
  case wireEsc => cases he; exact hbyte _
  case wireXon => cases he; exact hbyte _
  case wireXoff => cases he; exact hbyte _
  case wireData b => cases he; exact hbyte _
  all_goals cases he; exact hresp _ h

/-- The packaged induction step: what every shared operation keeps, every step keeps. -/
theorem KeptByOps.step {P : State → Prop} (k : KeptByOps P) {s t : State} (h : P s)
    (hs : step s = .next t) : P t := by
  rcases step_cases hs with rfl | ⟨e, rest, _, rfl⟩ | ⟨w, _, _, rfl⟩ | ⟨e, i, rest, _, _, _, he⟩ |
    ⟨e, r, rest, _, _, _, rfl⟩
  · exact h
  · have h1 := k.txlog { s with agenda := rest, rxq := s.rxq ++ e.arrive, now := s.now + e.advance }
      (s.txlog.drop e.drain) (k.now _ _ (k.rxq _ _ (k.agenda s rest h)))
    exact k.wait _ _ h1
  · exact k.waitIterate w h
  · exact k.exec i (k.agenda s rest h) he
  · exact k.resp _ _ (k.raise _ _ (k.agenda s rest h))

end Sys2Proof.Machine
end

