-- ==== Sys2Proof/Laws/Words.lean ====
section
/-! SUPPORT. The packed response words as numbers (spec/30_encoding.md rules R94, R95, R97, R98). -/

namespace Sys2Proof.Machine
theorem zextByte_toNat (b : Byte) : (zextByte b).toNat = b.toNat := by
  have h : (zextByte b).toNat = (0#24 ++ b).toNat := rfl
  rw [h, toNat_append_add]; simp

theorem zextHalf_toNat (h : Half) : (zextHalf h).toNat = h.toNat := by
  have e : (zextHalf h).toNat = (0#16 ++ h).toNat := rfl
  rw [e, toNat_append_add]; simp

theorem packStatus_toNat (s : State) (kind : BitVec 2) (err : BitVec 3) (acc : Bool) :
    (packStatus s kind err acc).toNat = kind.toNat + 4 * err.toNat + 32 * (inframe s).toNat +
      64 * s.esc.toNat + 128 * acc.toNat + 65536 * s.pos.toNat := by
  have h : (packStatus s kind err acc).toNat =
    (s.pos ++ 0#8 ++ BitVec.ofBool acc ++ BitVec.ofBool s.esc ++ BitVec.ofBool (inframe s)
      ++ err ++ kind).toNat := rfl
  rw [h, toNat_append_add, toNat_append_add, toNat_append_add, toNat_append_add, toNat_append_add,
    toNat_append_add]
  simp only [BitVec.toNat_ofBool, BitVec.toNat_ofNat]
  omega

theorem packView_toNat (vkind : BitVec 2) (short : Bool) (v : Byte) (l : Half) :
    (packView vkind short v l).toNat =
      2 ^ 30 * vkind.toNat + 2 ^ 29 * short.toNat + 2 ^ 16 * v.toNat + l.toNat := by
  have h : (packView vkind short v l).toNat =
    (vkind ++ BitVec.ofBool short ++ 0#5 ++ v ++ l).toNat := rfl
  rw [h, toNat_append_add, toNat_append_add, toNat_append_add, toNat_append_add]
  simp only [BitVec.toNat_ofBool, BitVec.toNat_ofNat]
  omega

theorem txWord_toNat (s : State) :
    (txWord s).toNat = s.txBusy.toNat + 256 * s.fault.toNat + 65536 * s.txRem.toNat := by
  have h : (txWord s).toNat = (s.txRem ++ s.fault ++ 0#7 ++ BitVec.ofBool s.txBusy).toNat := rfl
  rw [h, toNat_append_add, toNat_append_add, toNat_append_add]
  simp only [BitVec.toNat_ofBool, BitVec.toNat_ofNat]
  omega
end Sys2Proof.Machine
end

