-- ==== Sys2Proof/Tests/Slice0.lean ====
section
/-! SUPPORT. The model's own tests. Part 1: ill-formed terms are refused. Part 2: words written out
bit by bit from spec/30_encoding.md rules R91, R92 and R99. Part 3: one step each, with results from
spec/95_test_vectors.md. Part 4: a witness for the hypotheses of every obligation that has any. -/

namespace Sys2Proof.Tests

open Sys2Proof Sys2Proof.Machine

/-! Part 1. -/

theorem test_wf_refuses_rxWait_too_long : Instr.wf (.rxWait 16777216) = false := by decide
theorem test_wf_takes_rxWait_longest : Instr.wf (.rxWait 16777215) = true := by decide
theorem test_wf_refuses_rdBuf_too_high : Instr.wf (.rdBuf 65536) = false := by decide
theorem test_wf_takes_rdBuf_highest : Instr.wf (.rdBuf 65535) = true := by decide
theorem test_wf_refuses_txBegin_too_long : Instr.wf (.txBegin 0x08#8 65536) = false := by decide
theorem test_wf_takes_txBegin_longest : Instr.wf (.txBegin 0x08#8 65535) = true := by decide
theorem test_wf_refuses_wireData_special :
    [Instr.wireData 0x7E#8, .wireData 0x7D#8, .wireData 0x11#8, .wireData 0x13#8].map Instr.wf =
      [false, false, false, false] := by decide
theorem test_wf_takes_wireData_other : Instr.wf (.wireData 0x5E#8) = true := by decide

/-- Rule R5: one view id for two tags is no VIEW_TABLE. -/
theorem test_config_refuses_shared_view :
    Config.wf { Config.standard with viewTable := [⟨0x88#8, 1#8, 4⟩, ⟨0x8A#8, 1#8, 1⟩] } = false := by
  decide

/-- Rule R5: one tag twice is no VIEW_TABLE. -/
theorem test_config_refuses_tag_twice :
    Config.wf { Config.standard with viewTable := [⟨0x88#8, 1#8, 4⟩, ⟨0x88#8, 2#8, 1⟩] } = false := by
  decide

/-! Part 2. -/

/-- What the decoder reads from a command word, none where it rejects. -/
def readWord (w : Word) : Option Instr := decodeTableWord 32 w.toNat

/-- What the decoder reads from a wire byte. -/
def readWire (b : Byte) : Option Instr := decodeTableWord 8 b.toNat

theorem test_decode_nop :
    readWord 0b0000_0000000000000000000000000000#32 = some .nop := by decide
theorem test_decode_rxByte :
    readWord 0b0001_00000000000000000000_10000001#32 = some (.rxByte 0x81#8) := by decide
theorem test_decode_rxPoll :
    readWord 0b0010_0000000000000000000000000000#32 = some .rxPoll := by decide
theorem test_decode_rxWait :
    readWord 0b0011_0000_100000000000000000000001#32 = some (.rxWait 8388609) := by decide
theorem test_decode_rxAck :
    readWord 0b0100_0000000000000000000000000000#32 = some .rxAck := by decide
theorem test_decode_rdStatus :
    readWord 0b0101_0000000000000000000000000000#32 = some .rdStatus := by decide
theorem test_decode_rdTag :
    readWord 0b0110_0000000000000000000000000000#32 = some .rdTag := by decide
theorem test_decode_rdDeclen :
    readWord 0b0111_0000000000000000000000000000#32 = some .rdDeclen := by decide
theorem test_decode_rdFlen :
    readWord 0b1000_0000000000000000000000000000#32 = some .rdFlen := by decide
theorem test_decode_rdCksum :
    readWord 0b1001_0000000000000000000000000000#32 = some .rdCksum := by decide
theorem test_decode_rdBuf :
    readWord 0b1010_000000000000_1000000000000001#32 = some (.rdBuf 32769) := by decide
theorem test_decode_viewFor :
    readWord 0b1011_0000000000000000000000000000#32 = some .viewFor := by decide
theorem test_decode_txBegin :
    readWord 0b1100_0000_10000001_1000000000000010#32 = some (.txBegin 0x81#8 32770) := by decide
theorem test_decode_txData :
    readWord 0b1101_00000000000000000000_01000001#32 = some (.txData 0x41#8) := by decide
theorem test_decode_rdTxstat :
    readWord 0b1110_0000000000000000000000000000#32 = some .rdTxstat := by decide
theorem test_decode_reset :
    readWord 0b1111_0000000000000000000000000000#32 = some .reset := by decide
theorem test_decode_wireStart : readWire 0b01111110#8 = some .wireStart := by decide
theorem test_decode_wireEsc : readWire 0b01111101#8 = some .wireEsc := by decide
theorem test_decode_wireXon : readWire 0b00010001#8 = some .wireXon := by decide
theorem test_decode_wireXoff : readWire 0b00010011#8 = some .wireXoff := by decide
theorem test_decode_wireData : readWire 0b01111111#8 = some (.wireData 0x7F#8) := by decide

/-- Vectors of spec/95_test_vectors.md section 2.1: a reserved bit of each format. -/
theorem test_decode_rejects_reserved_bits :
    [0x00000001#32, 0x10000100#32, 0x31000000#32, 0xA0010000#32, 0xC1000000#32, 0xF0000001#32,
      0x2FFFFFFF#32].map readWord = List.replicate 7 none := by decide

/-! Part 3. -/

/-- The parameters of spec/95_test_vectors.md, with FRAME_CAP and RESTART_POLICY as given. -/
def params (cap : Fin 65532) (r : RestartPolicy) : Config :=
  { frameCap := cap, viewTable := [⟨0x88#8, 0x01#8, 4⟩, ⟨0x8A#8, 0x02#8, 1⟩], restart := r }

/-- Power-on reset with those parameters. -/
def boot : State := State.powerOn (params 110 .resync) [] 0

/-- In a frame at POS = `p`, with the length bytes and the running checksum given. -/
def inFrame (p : Half) (lm ll rck : Byte) : State :=
  { boot with pos := p, lenMsb := lm, lenLsb := ll, tag := 0x08#8, rck := rck }

/-- The held frame of vector E1. -/
def heldE1 : State :=
  { boot with
    kind := .complete
    lenLsb := 0x03#8
    tag := 0x08#8
    rxck := 0x62#8
    flen := 2#16
    buf := [(0, 0x41#8), (1, 0x54#8)] }

/-- An encoder with `k` payload bytes to come. -/
def sending (k : Half) (tck : Byte) : State := { boot with txBusy := true, txRem := k, tck := tck }

/-- A view of the next state, none where the machine stops. -/
def seen {α : Type} (f : State → α) : Host.Outcome State Fault Refusal → Option α
  | .next t => some (f t)
  | .fault _ => none
  | .refused _ => none

/-- The fault a step stops with. -/
def stops : Host.Outcome State Fault Refusal → Option Fault
  | .next _ => none
  | .fault r => some r
  | .refused _ => none

/-- Vector B4. -/
theorem test_nop : seen State.resp (exec .nop heldE1) = some (some 0#32) := by decide

/-- Vector E1, the last byte. -/
theorem test_rxByte_completes :
    seen (fun t => (t.resp, t.kind, t.flen, t.rxck))
      (exec (.rxByte 0x62#8)
        { inFrame 6#16 0x00#8 0x03#8 0x9D#8 with buf := [(0, 0x41#8), (1, 0x54#8)] }) =
      some (some 0x00000081#32, Kind.complete, 2#16, 0x62#8) := by decide

/-- Vector RX3, the byte 03: FRAME_CAP = 2, POS = 6. -/
theorem test_rxByte_oversize :
    seen (fun t => (t.resp, t.flen, t.buf))
      (exec (.rxByte 0x03#8)
        { inFrame 6#16 0x00#8 0x04#8 0x0B#8 with
          cfg := params 2 .resync
          buf := [(0, 0x01#8), (1, 0x02#8)] }) =
      some (some 0x0000008A#32, 2#16, [(0, 0x01#8), (1, 0x02#8)]) := by decide

/-- Vector RX16. -/
theorem test_rxPoll_stops_at_result :
    seen (fun t => (t.resp, t.rxq, t.buf))
      (exec .rxPoll
        { boot with
          rxq := [0x7E#8, 0x00#8, 0x03#8, 0x08#8, 0x41#8, 0x54#8, 0x62#8, 0x11#8] }) =
      some (some 0x00000001#32, [0x11#8], [(0, 0x41#8), (1, 0x54#8)]) := by decide

/-- Vector RX17. -/
theorem test_rxPoll_keeps_escape :
    seen (fun t => (t.resp, t.rxq))
      (exec .rxPoll { boot with rxq := [0x7E#8, 0x00#8, 0x02#8, 0x08#8, 0x7D#8] }) =
      some (some 0x00040060#32, []) := by decide

/-- Vector RX20: the bytes at hand are decoded before the deadline test. -/
theorem test_rxWait_zero :
    seen (fun t => (t.resp, t.wait))
      (exec (.rxWait 0) { boot with rxq := [0x7E#8, 0x00#8, 0x01#8, 0x08#8, 0xF7#8], now := 100 }) =
      some (some 0x00000001#32, none) := by decide

/-- Vector RX19, its last iteration, at NOW = 106. -/
theorem test_rxWait_times_out :
    seen (fun t => (t.resp, t.wait, t.kind))
      (step { boot with now := 106, wait := some { t0 := 100, t := 5, lifted := true } }) =
      some (some 0x00000012#32, none, Kind.none) := by decide

/-- Vector RX6, its RX_ACK. -/
theorem test_rxAck :
    seen (fun t => (t.resp, t.pos))
      (exec .rxAck { inFrame 1#16 0x00#8 0x05#8 0x00#8 with
        kind := .failed
        err := .unexpectedRestart
        flen := 1#16 }) =
      some (some 0x00010020#32, 1#16) := by decide

/-- Program P3, command 13. -/
theorem test_rdStatus :
    seen State.resp (exec .rdStatus { inFrame 4#16 0x00#8 0x02#8 0x88#8 with esc := true }) =
      some (some 0x00040060#32) := by decide

/-- Vector E1, its reads. -/
theorem test_rdTag : seen State.resp (exec .rdTag heldE1) = some (some 0x00000008#32) := by decide
theorem test_rdDeclen : seen State.resp (exec .rdDeclen heldE1) = some (some 0x00000003#32) := by decide
theorem test_rdFlen : seen State.resp (exec .rdFlen heldE1) = some (some 0x00000002#32) := by decide
theorem test_rdCksum : seen State.resp (exec .rdCksum heldE1) = some (some 0x00000062#32) := by decide
theorem test_rdBuf : seen State.resp (exec (.rdBuf 1) heldE1) = some (some 0x00000054#32) := by decide

/-- Vectors B1 and B2. -/
theorem test_rdBuf_edges :
    stops (exec (.rdBuf 0) (State.powerOn (params 4 .resync) [] 0)) = some (.bufUnwritten 0) ∧
    seen State.fault (exec (.rdBuf 4) (State.powerOn (params 4 .resync) [] 0)) = some 0x10#8 := by
  decide

/-- Vectors V1 and V6. -/
theorem test_viewFor :
    seen State.resp (exec .viewFor { heldE1 with tag := 0x88#8, flen := 6#16 }) =
      some (some 0x80010002#32) ∧
    seen State.resp (exec .viewFor { heldE1 with tag := 0x90#8 }) = some (some 0x40000000#32) := by
  decide

/-- Vectors V5 and V8. -/
theorem test_viewFor_edges :
    seen State.resp (exec .viewFor { heldE1 with tag := 0x8A#8, flen := 0#16 }) =
      some (some 0xA0020000#32) ∧
    seen State.resp (exec .viewFor boot) = some (some 0x00000000#32) := by decide

/-- Vector E1, the header. -/
theorem test_txBegin :
    seen (fun t => (t.resp, t.txlog)) (exec (.txBegin 0x08#8 2) boot) =
      some (some 0x00020001#32,
        [.write 0x7E#8, .write 0x00#8, .write 0x03#8, .write 0x08#8]) := by decide

/-- Vectors T2 and T12. -/
theorem test_txBegin_edges :
    seen (fun t => (t.resp, t.txlog)) (exec (.txBegin 0x7E#8 0) boot) =
      some (some 0x00000000#32, [.write 0x7E#8, .write 0x00#8, .write 0x01#8, .write 0x7D#8,
        .write 0x5E#8, .write 0x81#8, .flush]) ∧
    seen State.resp (exec (.txBegin 0x08#8 0xFFFF) boot) = some (some 0x00000800#32) := by decide

/-- Vector T3, its TX_DATA: the checksum 7E is stuffed. -/
theorem test_txData_closes :
    seen (fun t => (t.resp, t.txlog)) (exec (.txData 0x79#8) (sending 1#16 0x08#8)) =
      some (some 0x00000000#32, [.write 0x79#8, .write 0x7D#8, .write 0x5E#8, .flush]) := by decide

/-- Vector T10. -/
theorem test_txData_idle :
    seen (fun t => (t.resp, t.txlog)) (exec (.txData 0x41#8) boot) = some (some 0x00000400#32, []) := by
  decide

/-- Program P4, command 7. -/
theorem test_rdTxstat :
    seen State.resp (exec .rdTxstat { boot with fault := 0x07#8 }) = some (some 0x00000700#32) := by
  decide

/-- Vector X1, its RESET. -/
theorem test_reset :
    seen (fun t => (t.resp, t.pos, t.fault)) (exec .reset { inFrame 1#16 0#8 0#8 0#8 with
      fault := 0x04#8 }) = some (some 0x00000000#32, 0#16, 0x04#8) := by decide

/-- Rules R161 and R162. -/
theorem test_wireStart :
    seen State.pos (exec .wireStart boot) = some 1#16 ∧
    seen State.err (exec .wireStart (inFrame 4#16 0#8 5#8 8#8)) = some .unexpectedRestart := by decide

/-- Rules R161 and R163. -/
theorem test_wireEsc :
    seen State.esc (exec .wireEsc boot) = some false ∧
    seen State.esc (exec .wireEsc (inFrame 4#16 0#8 5#8 8#8)) = some true := by decide

/-- Vector RX12: a raw XON is data. -/
theorem test_wireXon :
    seen State.buf (exec .wireXon (inFrame 4#16 0x00#8 0x02#8 0x08#8)) = some [(0, 0x11#8)] := by
  decide

/-- Rule R161: noise at POS 0, accepted as RX_BYTE accepts it. -/
theorem test_wireXoff :
    seen (fun t => (t.pos, t.buf, t.resp)) (exec .wireXoff boot) =
      some (0#16, [], some 0x00000080#32) := by decide

/-- Vector RX13: a malformed escape is data. -/
theorem test_wireData :
    seen State.buf (exec (.wireData 0x41#8)
      { inFrame 4#16 0x00#8 0x02#8 0x08#8 with esc := true }) = some [(0, 0x61#8)] := by decide

/-- Program P4, command 6, at the port. -/
theorem test_illegal_word :
    seen (fun t => (t.resp, t.fault)) (step (boot.withFetchWord 32 0x00000001)) =
      some (some 0x00000000#32, 0x01#8) := by decide

/-- Vector E1, the first byte, fetched right after reset. -/
theorem test_fetch_after_reset :
    seen State.resp (step (State.reset.withFetchWord 32 0x1000007E)) = some (some 0x000100A0#32) := by
  decide

/-- Vectors of spec/95_test_vectors.md section 2.2. -/
theorem test_checksum_vectors :
    ckCompute [] = 0xFF#8 ∧ ckCompute [0x08#8, 0x41#8, 0x54#8] = 0x62#8 ∧
    ckCompute [0xFF#8, 0xFF#8, 0x02#8] = 0xFF#8 ∧ ckCompute [0xFF#8] = 0x00#8 ∧
    ckVerify [0x08#8, 0x41#8, 0x54#8] 0x62#8 = true ∧
    ckVerify [0x08#8, 0x41#8, 0x54#8] 0x63#8 = false ∧ ckAdd 0xFF#8 0x01#8 = 0x00#8 := by decide

theorem test_stuff_vectors :
    stuff 0x7E#8 = [0x7D#8, 0x5E#8] ∧ stuff 0x13#8 = [0x7D#8, 0x33#8] ∧ stuff 0x20#8 = [0x20#8] ∧
    unesc 0x41#8 = 0x61#8 := by decide

/-- Vector T1's wire bytes, as `encode_frame` gives them. -/
theorem test_encodeFrame :
    frameWire 0x08#8 [0x7E#8, 0x11#8, 0x00#8] =
      [0x7E#8, 0x00#8, 0x04#8, 0x08#8, 0x7D#8, 0x5E#8, 0x7D#8, 0x31#8, 0x00#8, 0x68#8] := by decide

/-! Part 4. -/

/-- A start of a decoder session before each boundary of POS, for the statements on one byte. -/
def unescapedAt (p : Half) : State := inFrame p 0x00#8 0x05#8 0x08#8

theorem witness_DecodeOfEncodeIsInstr :
    Instr.wf (.txBegin 0xFF#8 65535) = true ∧ Instr.wf (.rxWait 0) = true ∧
      Instr.wf (.wireData 0xFF#8) = true := by decide

theorem witness_EncodeOfDecodeIsUnit :
    decode (.command 0x30FFFFFF#32) = .ok (.rxWait 16777215) ∧
      decode (.wire 0x7D#8) = .ok .wireEsc := ⟨rfl, rfl⟩

/-- Each of the five clauses, at the lowest reserved bit of its formats. -/
theorem witness_IllegalWordsSetOnlyFaultBit0 :
    (∃ s : State, s.wait = none ∧ s.agenda = [.unit (.command 0x00000001#32)]) ∧
      decode (.command 0x00000001#32) = .error (.reservedBits .fn) ∧
      decode (.command 0xF8000000#32) = .error (.reservedBits .fn) ∧
      decode (.command 0xD0000100#32) = .error (.reservedBits .fb) ∧
      decode (.command 0x38000000#32) = .error (.reservedBits .ft) ∧
      decode (.command 0xA8000000#32) = .error (.reservedBits .fi) ∧
      decode (.command 0xC8000000#32) = .error (.reservedBits .fx) :=
  ⟨⟨boot.withFetchWord 32 1, rfl, rfl⟩, rfl, rfl, rfl, rfl, rfl, rfl⟩

theorem witness_StepRunsDecoded :
    ∃ (s : State) (e : Encoded) (i : Instr) (rest : List Input),
      s.wait = none ∧ s.agenda = .unit e :: rest ∧ decode e = .ok i :=
  ⟨boot.withFetchWord 32 0x20000000, .command 0x20000000#32, .rxPoll, [], rfl, rfl, rfl⟩

/-- A wait in progress that no move has lifted yet. -/
def waiting : State := { boot with now := 100, wait := some { t0 := 100, t := 5, lifted := false } }

/-- The three clauses: a move outside and inside a wait, an idle machine, and a wait that only a
host command could follow. -/
theorem witness_EnvironmentActsOnlyOnItsOwnState :
    (∃ s : State, s.agenda = [.env ⟨[0x7E#8], 1, 0⟩] ∧ ∀ w, s.wait = some w → w.lifted = false) ∧
    (∃ s : State, s.agenda = [.env ⟨[], 3, 0⟩] ∧ s.wait ≠ none ∧
      ∀ w, s.wait = some w → w.lifted = false) ∧
    (boot.wait = none ∧ boot.agenda = []) ∧
    ∃ (s : State) (w : Wait), s.wait = some w ∧ w.lifted = false ∧
      ∀ e rest, s.agenda ≠ .env e :: rest :=
  ⟨⟨{ boot with agenda := [.env ⟨[0x7E#8], 1, 0⟩] }, rfl, fun _ h => by cases h⟩,
    ⟨{ waiting with agenda := [.env ⟨[], 3, 0⟩] }, rfl, by decide, fun _ h => by cases h; rfl⟩,
    ⟨rfl, rfl⟩,
    ⟨{ waiting with agenda := [.unit (.command 0#32)] }, _, rfl, rfl, fun _ _ h => by cases h⟩⟩

theorem witness_StuffedFramesHoldNoMarkerInside :
    stuff 0x11#8 = [0x7D#8, 0x31#8] ∧ (frameWire 0x7E#8 [])[0]? = some 0x7E#8 := by decide

theorem witness_StuffTable :
    isSpecial 0x7D#8 = true ∧ isSpecial 0x7C#8 = false ∧ isSpecial 0x7F#8 = false ∧
      isSpecial 0x12#8 = false := by decide

theorem witness_IdleByteStartsFrameOrIsNoise :
    boot.kind = .none ∧ boot.pos = 0#16 := by decide

/-- POS at 1, 3 and 4, where `written` changes, and at its top. -/
theorem witness_RestartByteFailsFrame :
    ∀ s ∈ [unescapedAt 1#16, unescapedAt 3#16, unescapedAt 4#16, unescapedAt 0xFFFF#16],
      s.kind = .none ∧ s.pos ≠ 0#16 := by decide

theorem witness_EscapeMarkerSetsEscOnly :
    (unescapedAt 1#16).kind = .none ∧ (unescapedAt 1#16).pos ≠ 0#16 ∧
      (unescapedAt 1#16).esc = false := by decide

/-- The byte after an escape marker and a plain byte, at each POS. -/
theorem witness_HeaderBytesFillLengthAndTag :
    [1#16, 2#16, 3#16].map (fun p => (unescapedAt p).pos) = [1#16, 2#16, 3#16] ∧
    (∀ s ∈ [1#16, 2#16, 3#16].map unescapedAt,
      s.kind = .none ∧ (0x13#8 : Byte) ≠ 0x7E#8 ∧ ¬(s.esc = false ∧ (0x13#8 : Byte) = 0x7D#8)) ∧
    ∀ s ∈ [1#16, 2#16, 3#16].map (fun p => { unescapedAt p with esc := true }),
      s.kind = .none ∧ ¬(s.esc = false ∧ (0x7D#8 : Byte) = 0x7D#8) := by decide

/-- The lowest checksum position (DECLEN = 1), and one beyond the buffer's capacity. -/
theorem witness_ChecksumByteEndsFrame :
    ∀ s ∈ [inFrame 4#16 0x00#8 0x01#8 0x08#8, inFrame 0x0102#16 0x00#8 0xFF#8 0x08#8],
      s.kind = .none ∧ (0xF7#8 : Byte) ≠ 0x7E#8 ∧ ¬(s.esc = false ∧ (0xF7#8 : Byte) = 0x7D#8) ∧
        4 ≤ s.pos.toNat ∧ s.pos.toNat = 256 * s.lenMsb.toNat + s.lenLsb.toNat + 3 := by decide

/-- FRAME_CAP = 0 at POS = 4; FRAME_CAP = 2 at POS = FRAME_CAP + 4; and a POS beyond it. -/
theorem witness_OversizeByteFailsFrame :
    ∀ s ∈ [{ unescapedAt 4#16 with cfg := params 0 .discard },
        { unescapedAt 6#16 with cfg := params 2 .resync }, unescapedAt 0xFFFF#16],
      s.kind = .none ∧ ¬(s.esc = false ∧ (0x03#8 : Byte) = 0x7D#8) ∧ 4 ≤ s.pos.toNat ∧
        s.pos.toNat ≠ 256 * s.lenMsb.toNat + s.lenLsb.toNat + 3 ∧
        s.cfg.frameCap.val ≤ s.pos.toNat - 4 := by decide

/-- The first payload byte, and the last that fits (FRAME_CAP = 65531 at POS = 65534). -/
theorem witness_PayloadByteIsStored :
    ∀ s ∈ [unescapedAt 4#16, { unescapedAt 65534#16 with cfg := params 65531 .resync }],
      s.kind = .none ∧ ¬(s.esc = false ∧ (0x41#8 : Byte) = 0x7D#8) ∧ 4 ≤ s.pos.toNat ∧
        s.pos.toNat ≠ 256 * s.lenMsb.toNat + s.lenLsb.toNat + 3 ∧
        s.pos.toNat - 4 < s.cfg.frameCap.val := by decide

theorem witness_HeldResultRefusesBytes : heldE1.kind ≠ .none := by decide

/-- A row's word, a wire byte at the head of the port, and a held result beside none. -/
theorem witness_WireBytesActAsRxBytes :
    decodeTableWord 8 0x7E = some .wireStart ∧ boot.wait = none ∧ boot.kind = .none ∧
      heldE1.kind ≠ .none ∧
      seen State.resp (step (boot.withFetchWord 8 0x7E)) = some (some 0x000100A0#32) := by decide

/-- The last clauses: a byte accepted and a byte refused. -/
theorem witness_StatusWordsHaveTheirLayout : boot.kind = .none ∧ heldE1.kind ≠ .none := by decide

/-- POS = 0; POS > 0 with and without a pending escape; and the classes at POS 1, 2 and 3. -/
theorem witness_WireByteClasses :
    (boot.kind = .none ∧ boot.pos = 0#16) ∧
      (∀ s ∈ [1#16, 2#16, 3#16, 4#16].map unescapedAt, s.kind = .none ∧ s.pos ≠ 0#16 ∧
        s.esc = false ∧ { s with esc := true }.esc = true) ∧
      Instr.wf (.wireData 0x41#8) = true := by decide

theorem witness_RxPollFrame : ∃ s t : State, exec .rxPoll s = .next t ∧ t ≠ s :=
  ⟨{ boot with rxq := [0x7E#8] }, _, rfl, by decide⟩

/-- Before, at and past the deadline. -/
theorem witness_RxWaitLaterIteration :
    ∀ n ∈ [99, 104, 105, 106], ∃ (s : State) (w : Wait),
      s.wait = some w ∧ w.lifted = true ∧ s.kind = .none ∧ s.now = n ∧ w.t0 = 100 ∧ w.t = 5 :=
  fun n _ => ⟨{ boot with now := n, wait := some { t0 := 100, t := 5, lifted := true } }, _, rfl, rfl,
    rfl, rfl, rfl, rfl⟩

/-- The moves of vector RX19, which pass the deadline at their last; and one that stops short. -/
theorem witness_RxWaitTerminates :
    (∃ (es : List EnvMove) (s : State) (w : Wait), s.wait = some w ∧ w.lifted = false ∧
      s.agenda = es.map .env ++ [] ∧ es ≠ [] ∧
      w.t0 + w.t ≤ s.now + (es.map EnvMove.advance).sum) ∧
    (∃ (es : List EnvMove) (s : State) (w : Wait), s.wait = some w ∧ w.lifted = false ∧
      s.agenda = es.map .env ++ [] ∧ s.kind = .none ∧ s.rxq = [] ∧ w.t0 ≤ s.now ∧
      (∀ e ∈ es, e.arrive = []) ∧ es ≠ [] ∧
      s.now + (es.map EnvMove.advance).sum < w.t0 + w.t) :=
  ⟨⟨[⟨[], 3, 0⟩, ⟨[], 3, 0⟩], { waiting with agenda := [.env ⟨[], 3, 0⟩, .env ⟨[], 3, 0⟩] },
      ⟨100, 5, false⟩, by decide⟩,
    ⟨[⟨[], 4, 0⟩], { waiting with agenda := [.env ⟨[], 4, 0⟩] }, ⟨100, 5, false⟩, by decide⟩⟩

theorem witness_ReleaseIsReturnFromResult : boot.kind = .none ∧ heldE1.kind ≠ .none := by decide

/-- A busy encoder, and an idle one with n at 0, 1, 0xFFFE and 0xFFFF. -/
theorem witness_TxBeginOpensOrSendsFrame :
    (sending 1#16 0#8).txBusy = true ∧ boot.txBusy = false ∧ 0xFFFE < 0xFFFF ∧ 0 < 1 ∧
      1 ≤ 0xFFFE := by decide

theorem witness_TxDataSendsByteAndClosesFrame :
    boot.txBusy = false ∧ ((sending 2#16 0#8).txBusy = true ∧ (sending 2#16 0#8).txRem ≠ 1#16) ∧
      (sending 1#16 0#8).txBusy = true ∧ (sending 1#16 0#8).txRem = 1#16 := by decide

/-- An empty payload and the longest one. -/
theorem witness_TxFrameSendsEncodeFrame :
    boot.txBusy = false ∧ boot.txRem = 0#16 ∧ ([] : List Byte).length ≤ 0xFFFE ∧
      (List.replicate 0xFFFE 0x11#8).length ≤ 0xFFFE :=
  ⟨rfl, rfl, by decide, by rw [List.length_replicate]⟩

theorem witness_OpenFrameIsPrefix :
    boot.txBusy = false ∧ ([] : List Byte).length < 1 ∧ [0x7E#8].length < 0xFFFE ∧
      [0x7E#8].length + [0x11#8].length = 2 := by decide

theorem witness_EncodeFrameShape :
    (List.replicate 0xFFFE 0x11#8).length ≤ 0xFFFE ∧ (frameWire 0x7D#8 [])[3]? = some 0x7D#8 :=
  ⟨by rw [List.length_replicate], by decide⟩

/-- The index FRAME_CAP, the last below it that is written, and one below it that is not. -/
theorem witness_RdBufReadsWrittenByte :
    ∃ s : State, s.cfg.frameCap.val ≤ 2 ∧ (1 < s.cfg.frameCap.val ∧ bufRead s.buf 1 = some 0x54#8) ∧
      (0 < s.cfg.frameCap.val ∧ bufRead s.buf 0 = none) :=
  ⟨{ heldE1 with cfg := params 2 .resync, buf := [(1, 0x54#8)] }, by decide⟩

/-- No frame; an unknown tag; a known tag with FLEN below, at and above its prefix length. -/
theorem witness_ViewForDispatchesOnTag :
    boot.kind ≠ .complete ∧
    (heldE1.kind = .complete ∧ ∀ e ∈ heldE1.cfg.viewTable, e.tag ≠ heldE1.tag) ∧
    ∀ s ∈ [3#16, 4#16, 5#16].map (fun n => { heldE1 with tag := 0x88#8, flen := n }),
      s.kind = .complete ∧ s.cfg.wf = true ∧ ∃ e ∈ s.cfg.viewTable, e.tag = s.tag ∧ e.prefixLen = 4 := by
  decide

/-- The three clauses, on the table of spec/95_test_vectors.md. -/
theorem witness_ViewForIsTableDriven :
    (∃ s s' t t' : State, (s.kind = .complete ↔ s'.kind = .complete) ∧ s.tag = s'.tag ∧
      s.flen = s'.flen ∧ s.cfg.viewTable = s'.cfg.viewTable ∧ s ≠ s' ∧
      exec .viewFor s = .next t ∧ exec .viewFor s' = .next t') ∧
    (∃ (s : State) (e : ViewEntry), s.cfg.viewTable = [] ++ s.cfg.viewTable ∧ e.tag ≠ s.tag) ∧
    ∃ (s s' : State) (e e' : ViewEntry), s.cfg.wf = true ∧ s'.cfg = s.cfg ∧ s.kind = .complete ∧
      s'.kind = .complete ∧ e ∈ s.cfg.viewTable ∧ e.tag = s.tag ∧ e' ∈ s.cfg.viewTable ∧
      e'.tag = s'.tag ∧ s.tag ≠ s'.tag :=
  ⟨⟨heldE1, { heldE1 with rxck := 0#8 }, _, _, Iff.rfl, rfl, rfl, rfl, by decide, rfl, rfl⟩,
    ⟨heldE1, ⟨0x90#8, 3#8, 0⟩, rfl, by decide⟩,
    ⟨{ heldE1 with tag := 0x88#8 }, { heldE1 with tag := 0x8A#8 }, ⟨0x88#8, 0x01#8, 4⟩,
      ⟨0x8A#8, 0x02#8, 1⟩, by decide⟩⟩

theorem witness_ReadsHaveNoSideEffect :
    (∃ t, exec .rdTag heldE1 = .next t) ∧ 1 < heldE1.cfg.frameCap.val ∧
      ∃ t, exec (.rdBuf 1) heldE1 = .next t :=
  ⟨⟨_, rfl⟩, by decide, ⟨_, rfl⟩⟩

/-- A step that keeps a set FAULT bit while it sets another. -/
theorem witness_FaultBitsAreSticky :
    ∃ s t : State, step s = .next t ∧ s.fault = 0x04#8 ∧ t.fault = 0x05#8 ∧ FaultReserved s :=
  ⟨{ boot with fault := 0x04#8 }.withFetchWord 32 1, _, rfl, rfl, rfl, by
    unfold FaultReserved; decide⟩

/-- Each fault that a command can raise. -/
theorem witness_FaultEntrySetsOneBit :
    (∃ t, exec (.txBegin 0x09#8 0) (sending 2#16 0x08#8) = .next t ∧ t.fault = 0x02#8) ∧
    (∃ t, exec (.txData 0x41#8) boot = .next t ∧ t.fault = 0x04#8) ∧
    (∃ t, exec (.txBegin 0x08#8 0xFFFF) boot = .next t ∧ t.fault = 0x08#8) ∧
    ∃ t, exec (.rdBuf 110) boot = .next t ∧ t.fault = 0x10#8 :=
  ⟨⟨_, rfl, rfl⟩, ⟨_, rfl, rfl⟩, ⟨_, rfl, rfl⟩, ⟨_, rfl, rfl⟩⟩

theorem witness_DecoderStateOnlyByRxCommands :
    (∃ t, exec .rxAck heldE1 = .next t) ∧ (∃ t, exec .rdStatus heldE1 = .next t) ∧
      (∃ t, exec (.rdBuf 0) heldE1 = .next t) ∧ (∃ t, exec (.txBegin 0x08#8 2) heldE1 = .next t) ∧
      ∃ t, exec (.txData 0x41#8) heldE1 = .next t :=
  ⟨⟨_, rfl⟩, ⟨_, rfl⟩, ⟨_, rfl⟩, ⟨_, rfl⟩, ⟨_, rfl⟩⟩

theorem witness_StreamsAndClockHaveOneOwner :
    ∃ t, exec (.rxByte 0x7E#8) boot = .next t ∧ t ≠ boot := ⟨_, rfl, by decide⟩

/-- An environment's move; an iteration with the next move at the head; a step with no move there;
and a command but RX_WAIT. -/
theorem witness_ParametersNeverChange :
    (∃ s t : State, step s = .next t ∧ s.now < t.now) ∧
      (∃ (s t : State) (w : Wait), step s = .next t ∧ s.wait = some w ∧ w.lifted = true ∧
        s.agenda = [.env ⟨[], 3, 0⟩]) ∧
      (∃ s t : State, step s = .next t ∧ ∀ e rest, s.agenda ≠ .env e :: rest) ∧
      ∃ t, exec .rxPoll boot = .next t :=
  ⟨⟨{ boot with agenda := [.env ⟨[], 3, 0⟩] }, _, rfl, by decide⟩,
    ⟨{ waiting with wait := some ⟨100, 5, true⟩, agenda := [.env ⟨[], 3, 0⟩] }, _, ⟨100, 5, true⟩,
      rfl, rfl, rfl, rfl⟩,
    ⟨boot, _, rfl, fun _ _ h => by cases h⟩, ⟨_, rfl⟩⟩

theorem witness_RxAndTxCommandsCommute :
    (∃ t, runAll [.rxWait 5, .txData 0x41#8] (sending 1#16 0x08#8) = .next t) ∧
      ∃ t, runAll [.wireXoff, .txBegin 0x08#8 0] (unescapedAt 4#16) = .next t :=
  ⟨⟨_, rfl⟩, ⟨_, rfl⟩⟩

/-- A decoder in the middle of a payload meets every invariant, and a command is on the port. -/
def midFrame : State :=
  { inFrame 5#16 0x00#8 0x02#8 0x49#8 with
    buf := [(0, 0x41#8)]
    agenda := [.unit (.command 0x100000B6#32)] }

theorem midFrame_session : SessionInv midFrame := by
  constructor <;> decide

theorem midFrame_holds : HoldsPayload midFrame.buf [0x41#8] := by
  intro i hi
  obtain rfl : i = 0 := by simpa using hi
  rfl

theorem midFrame_current : CurrentFrame midFrame [0x41#8] := ⟨rfl, midFrame_holds, by decide⟩

theorem midFrame_accum : AccumInv midFrame := fun _ _ => ⟨_, midFrame_current⟩

theorem midFrame_bounds : BoundsInv midFrame := by
  refine ⟨by decide, by decide, ?_⟩
  intro i hi
  by_cases h : i = 0
  · subst h; decide
  · simp [midFrame, bufRead, Ne.symm h] at hi

theorem witness_SessionInvariantKept :
    SessionInv midFrame ∧ ∃ t, step midFrame = .next t ∧ t.kind = .complete :=
  ⟨midFrame_session, _, rfl, by decide⟩

theorem witness_BoundsKept : BoundsInv midFrame ∧ ∃ t, step midFrame = .next t :=
  ⟨midFrame_bounds, _, rfl⟩

/-- A step; a tag byte at POS = 3; and an escape marker and a payload byte that lead to no result. -/
theorem witness_AccumulatorInvariantKept :
    (SessionInv midFrame ∧ AccumInv midFrame ∧ ∃ t, step midFrame = .next t) ∧
    (∃ s t : State, SessionInv s ∧ s.kind = .none ∧ s.pos = 3#16 ∧
      exec (.rxByte 0x08#8) s = .next t ∧ t.kind = .none ∧ 4 ≤ t.pos.toNat) ∧
    (midFrame.kind = .none ∧ CurrentFrame midFrame [0x41#8] ∧
      ∃ t, exec (.rxByte 0x7D#8) midFrame = .next t ∧ t.kind = .none) ∧
    ∃ s t : State, s.kind = .none ∧ CurrentFrame s [0x41#8] ∧
      exec (.rxByte 0x54#8) s = .next t ∧ t.kind = .none :=
  ⟨⟨midFrame_session, midFrame_accum, _, rfl⟩,
    ⟨inFrame 3#16 0x00#8 0x02#8 0x00#8, _, by constructor <;> decide, rfl, rfl, rfl, by decide,
      by decide⟩,
    ⟨rfl, midFrame_current, _, rfl, by decide⟩,
    ⟨{ midFrame with lenLsb := 0x03#8 }, _, rfl, ⟨rfl, midFrame_holds, by decide⟩, rfl, by decide⟩⟩

theorem witness_CompleteFrameIsVerified :
    SessionInv midFrame ∧ BoundsInv midFrame ∧ AccumInv midFrame ∧ CompleteInv midFrame ∧
      ∃ t, step midFrame = .next t ∧ t.kind = .complete :=
  ⟨midFrame_session, midFrame_bounds, midFrame_accum, fun h => absurd h (by decide), _, rfl, by decide⟩

theorem witness_TxInvariantKept :
    TxInv (sending 0xFFFE#16 0x08#8) ∧ TxInv boot ∧
      ∃ t, step ((sending 1#16 0x08#8).withFetchWord 32 0xD0000041) = .next t ∧ t.txBusy = false :=
  ⟨by constructor <;> decide, by constructor <;> decide, _, rfl, by decide⟩

theorem witness_MemoryStaysCanonical :
    Memory.wf heldE1.buf = true ∧ ∃ t, step heldE1 = .next t := ⟨by decide, _, rfl⟩

theorem witness_ReachableStatesAreSound :
    ∃ s, Reachable (params 2 .discard) s ∧ s.pos = 1#16 :=
  ⟨_, .step (.start [] 7 [.unit (.command 0x1000007E#32)]) rfl, rfl⟩

/-- A frame of DECLEN 1 in two deliveries. -/
theorem witness_PartialDelivery :
    boot.kind = .none ∧ boot.rxq = [] ∧
      ∃ v, runAll ([0x7E#8, 0x00#8, 0x01#8, 0x08#8].map .rxByte) boot = .next v ∧ v.kind = .none ∧
        [[0x7E#8, 0x00#8], [0x01#8, 0x08#8, 0xF7#8]].flatten.dropLast =
          [0x7E#8, 0x00#8, 0x01#8, 0x08#8] :=
  ⟨rfl, rfl, _, rfl, by decide, by decide⟩

/-- A payload as long as the buffer, from POS = 0 in two deliveries, and after an aborted frame. -/
theorem witness_RoundTrip :
    (∃ s : State, s.kind = .none ∧ s.rxq = [] ∧ s.pos = 0#16 ∧
      [0x7E#8].length ≤ s.cfg.frameCap.val ∧ s.cfg.frameCap.val = 1) ∧
    ([frameWire 0x08#8 [0x7E#8], []].flatten = frameWire 0x08#8 [0x7E#8] ∧
      ∀ c ∈ [frameWire 0x08#8 [0x7E#8]], c ≠ []) ∧
    ((unescapedAt 4#16).kind = .none ∧ (unescapedAt 4#16).rxq = [] ∧ (unescapedAt 4#16).pos ≠ 0#16 ∧
      (unescapedAt 4#16).cfg.restart = .resync) :=
  ⟨⟨{ boot with cfg := params 1 .resync }, by decide⟩, by decide, by decide⟩

/-- Bit 0 of the tag and bit 7 of the checksum of an E1 frame. -/
theorem witness_SingleBitFlipAlwaysDetected :
    boot.kind = .none ∧ boot.pos = 0#16 ∧ [0x41#8, 0x54#8].length ≤ boot.cfg.frameCap.val ∧
      0 < [0x41#8, 0x54#8].length + 2 ∧ 3 < [0x41#8, 0x54#8].length + 2 ∧ 0 < 8 ∧ 7 < 8 := by decide

theorem witness_NoiseIsSkippedToNextStart :
    (boot.pos = 0#16 ∧ (0x7E#8 : Byte) ∉ [0x55#8, 0x7D#8]) ∧
      [0x81#8] <:+ frameWire 0x7E#8 [] ∧ [0x81#8] ≠ frameWire 0x7E#8 [] := by decide

/-- POS = 3; and POS = 4 with room in the buffer and without. -/
theorem witness_ZeroLengthNeverCompletes :
    (∀ s ∈ [inFrame 3#16 0#8 0#8 0#8, inFrame 4#16 0#8 0#8 0#8],
      s.kind = .none ∧ (declen s).toNat = 0) ∧
    (inFrame 4#16 0#8 0#8 0#8).pos.toNat - 4 < (inFrame 4#16 0#8 0#8 0#8).cfg.frameCap.val ∧
    ∃ s : State, s.kind = .none ∧ (declen s).toNat = 0 ∧ 4 ≤ s.pos.toNat ∧
      s.cfg.frameCap.val ≤ s.pos.toNat - 4 :=
  ⟨by decide, by decide, ⟨{ inFrame 4#16 0#8 0#8 0#8 with cfg := params 0 .resync }, by decide⟩⟩

theorem witness_RestartLeavesNoResidue :
    (unescapedAt 5#16).kind = .none ∧ (unescapedAt 5#16).pos ≠ 0#16 ∧
      (unescapedAt 5#16).cfg.restart = .resync := by decide

end Sys2Proof.Tests
end

section
/-! PROOFS. The family `10_state`: the values power-on reset gives (rule R45). -/

namespace Sys2Proof.Machine

@[simp] theorem bufRead_nil (i : Nat) : bufRead [] i = none := rfl

@[simp] theorem powerOn_buf (c : Config) (q : List Byte) (n : Nat) :
    (State.powerOn c q n).buf = [] := rfl

/-- Rule R41: the level output is low exactly while no event is held. -/
@[simp] theorem rxEvent_eq_false_iff (s : State) : rxEvent s = false ↔ s.kind = .none := by
  simp [rxEvent]

/-- Rule R45 for the Frame Buffer: every index reads as unwritten after power-on. -/
theorem bufRead_powerOn (c : Config) (q : List Byte) (n a : Nat) :
    bufRead (State.powerOn c q n).buf a = none := by
  rw [powerOn_buf, bufRead_nil]

/-- Rule R45 with rule R41: no event is held after power-on, so rx_event is low. -/
theorem rxEvent_powerOn (c : Config) (q : List Byte) (n : Nat) :
    rxEvent (State.powerOn c q n) = false :=
  (rxEvent_eq_false_iff _).mpr rfl

/-- Settles O40: the registers and streams are fields of the power-on record; the Frame Buffer and
rx_event are read through `bufRead_powerOn` and `rxEvent_powerOn`. -/
theorem powerOnValues : Obligations.PowerOnValues := by
  intro c q n
  refine ⟨rfl, rfl, rfl, rfl, rfl, rfl, rfl, rfl, rfl, rfl, ?buffer, rfl, rfl, rfl, rfl, ?event,
    rfl, rfl, rfl⟩
  case buffer => exact bufRead_powerOn c q n
  case event => exact rxEvent_powerOn c q n

end Sys2Proof.Machine
end

section
/-! PROOFS. The family `30_encoding`: which command words are illegal, and what an illegal word
does (rules R93 and R306). -/

namespace Sys2Proof

/-- The rows of rule R91, by format. -/
theorem formatOf_rows : ∀ op < 16,
    (formatOf op = .fn ↔ op ∈ [0x0, 0x2, 0x4, 0x5, 0x6, 0x7, 0x8, 0x9, 0xB, 0xE, 0xF]) ∧
    (formatOf op = .fb ↔ op ∈ [0x1, 0xD]) ∧
    (formatOf op = .ft ↔ op = 0x3) ∧
    (formatOf op = .fi ↔ op = 0xA) ∧
    (formatOf op = .fx ↔ op = 0xC) := by decide

/-- The opcode field has four bits (rule R90). -/
theorem opcodeField_lt (w : Word) : opcodeField w < 16 := BitVec.isLt _

/-- Rule R93: exactly the words with a reserved bit set are rejected. -/
theorem decode_command_eq_error_iff (w : Word) :
    (∃ r, decode (.command w) = .error r) ↔
      reservedField (formatOf (opcodeField w)) w ≠ 0 := by
  rw [decode, decodeCommand]
  split <;> simp [*]

/-- The reserved bits of rule R92, format by format, as a number. -/
theorem reservedField_ne_zero_iff (f : Format) (w : Word) : reservedField f w ≠ 0 ↔
    (f = .fn ∧ w.toNat % 2 ^ 28 ≠ 0) ∨
    (f = .fb ∧ w.toNat / 2 ^ 8 % 2 ^ 20 ≠ 0) ∨
    (f = .ft ∧ w.toNat / 2 ^ 24 % 2 ^ 4 ≠ 0) ∨
    (f = .fi ∧ w.toNat / 2 ^ 16 % 2 ^ 12 ≠ 0) ∨
    (f = .fx ∧ w.toNat / 2 ^ 24 % 2 ^ 4 ≠ 0) := by
  cases f <;> simp [reservedField_eq]

end Sys2Proof

namespace Sys2Proof.Machine

/-- Rule R306 on the registers: FAULT[0] and the response. -/
theorem illegalCommand_eq (s : State) :
    illegalCommand s = { s with fault := s.fault ||| 1#8, resp := some 0#32 } := rfl

/-- A rejected word at the head of the agenda is taken off and answered by `illegalCommand`. -/
theorem step_of_decode_error {s : State} {e : Encoded} {rest : List Input} {r : Reject}
    (hwait : s.wait = none) (hagenda : s.agenda = .unit e :: rest) (hrej : decode e = .error r) :
    step s = .next (illegalCommand { s with agenda := rest }) := by
  simp [step, turn, takeUnit, hwait, hagenda, hrej]

/-- Settles O3: a rejection is a nonzero reserved field, read off format by format with the rows of
rule R91, and a rejected word's step is `illegalCommand`. -/
theorem illegalWordsSetOnlyFaultBit0 : Obligations.IllegalWordsSetOnlyFaultBit0 := by
  intro w
  constructor
  case left =>
    obtain ⟨hfn, hfb, hft, hfi, hfx⟩ := formatOf_rows _ (opcodeField_lt w)
    rw [decode_command_eq_error_iff, reservedField_ne_zero_iff, hfn, hfb, hft, hfi, hfx,
      opcodeField_eq]
  case right =>
    intro s rest r hwait hagenda hrej
    rw [step_of_decode_error hwait hagenda hrej, illegalCommand_eq]

end Sys2Proof.Machine
end

section
/-! PROOFS. The family `41_checksum_stuffing`, the two functions: the checksum (rules R130 to R134)
and byte stuffing (rules R136 to R139). -/

namespace Sys2Proof.Machine

/-- Rule R131 as a number. -/
theorem ckVerify_iff (bs : List Byte) (t : Byte) :
    ckVerify bs t = true ↔ (byteSum bs + t.toNat) % 256 = 0xFF := by
  simp [ckVerify]

/-- Rule R132: the accumulator started at 0x00. -/
theorem foldl_ckAdd_zero_toNat (bs : List Byte) :
    (bs.foldl ckAdd 0#8).toNat = byteSum bs % 256 := by
  simp [foldl_ckAdd_toNat]

/-- Settles O7: as numbers, `(s + t) mod 256 = 0xFF` and `t = 0xFF − s` agree, since both bytes are
below 256. -/
theorem ckVerifyIffComputed : Obligations.CkVerifyIffComputed := by
  intro bs t
  have ht := t.isLt
  rw [ckVerify_iff, ← BitVec.toNat_inj, ckCompute_toNat]
  omega

/-- Settles O8: each clause is read as an equation of numbers through the accumulator's value. -/
theorem runningAccumulatorIsExact : Obligations.RunningAccumulatorIsExact := by
  refine ⟨ckAdd_toNat, fun bs t => ⟨foldl_ckAdd_zero_toNat bs, ?compute, ?verify⟩⟩
  case compute => rw [ckCompute_toNat, foldl_ckAdd_zero_toNat]
  case verify =>
    rw [ckVerify_iff, ← BitVec.toNat_inj, ckAdd_toNat, foldl_ckAdd_zero_toNat, Nat.mod_add_mod]
    rfl

/-- Rule R134: subtracting from 0xFF borrows nothing. -/
theorem ofNat_sub_eq_not (x : Byte) : BitVec.ofNat 8 (0xFF - x.toNat) = ~~~x := by
  have hx := x.isLt
  apply BitVec.eq_of_toNat_eq
  rw [BitVec.toNat_ofNat, BitVec.toNat_not]
  omega

/-- Settles O9: `ck_compute` is 0xFF − s for the byte s of the sum mod 256. -/
theorem checksumIsComplementOfSum : Obligations.ChecksumIsComplementOfSum := by
  refine ⟨ofNat_sub_eq_not, fun bs => ?_⟩
  rw [← ofNat_sub_eq_not, ckCompute, BitVec.toNat_ofNat, Nat.mod_mod]

/-- Rule R136. -/
theorem isSpecial_iff (b : Byte) :
    isSpecial b = true ↔ b = startByte ∨ b = escByte ∨ b = xonByte ∨ b = xoffByte := by
  simp [isSpecial, or_assoc]

theorem stuff_of_isSpecial {b : Byte} (h : isSpecial b = true) :
    stuff b = [escByte, b ^^^ 0x20#8] := if_pos h

theorem stuff_of_not_isSpecial {b : Byte} (h : isSpecial b = false) : stuff b = [b] := by
  simp [stuff, h]

/-- Settles O11: `is_special` lists the four bytes, and `stuff` branches on it. -/
theorem stuffTable : Obligations.StuffTable :=
  ⟨isSpecial_iff, fun _ => stuff_of_isSpecial, fun _ => stuff_of_not_isSpecial, rfl, rfl, rfl, rfl⟩

/-- Rule R139 (b): the second byte of an escape pair is not special. -/
theorem isSpecial_xor_eq_false {b : Byte} (h : isSpecial b = true) :
    isSpecial (b ^^^ 0x20#8) = false := by
  rcases (isSpecial_iff b).mp h with rfl | rfl | rfl | rfl <;> decide

/-- Rule R139 (c). -/
@[simp] theorem unesc_xor (b : Byte) : unesc (b ^^^ 0x20#8) = b := by
  rw [unesc, BitVec.xor_assoc, BitVec.xor_self, BitVec.xor_zero]

/-- Rule R139 (a) and (d): the escape marker is the only special byte that `stuff` gives out. -/
theorem special_not_mem_stuff {x : Byte} (hx : isSpecial x = true) (hne : x ≠ escByte) (b : Byte) :
    x ∉ stuff b := by
  intro hmem
  cases hb : isSpecial b with
  | true =>
    rw [stuff_of_isSpecial hb, List.mem_pair] at hmem
    obtain rfl | rfl := hmem
    · exact hne rfl
    · simp [isSpecial_xor_eq_false hb] at hx
  | false =>
    rw [stuff_of_not_isSpecial hb, List.mem_singleton] at hmem
    simp [hmem, hb] at hx

/-- Only a special byte is stuffed into two. -/
theorem stuff_eq_pair {b x y : Byte} (h : stuff b = [x, y]) :
    isSpecial b = true ∧ x = escByte ∧ y = b ^^^ 0x20#8 := by
  cases hb : isSpecial b with
  | true =>
    rw [stuff_of_isSpecial hb] at h
    cases h
    exact ⟨rfl, rfl, rfl⟩
  | false =>
    rw [stuff_of_not_isSpecial hb] at h
    cases h

/-- Rule R139 (a) for a frame: the start marker stands at position 0 alone. -/
theorem frameWire_getElem?_eq_start_iff (tag : Byte) (p : List Byte) (i : Nat) :
    (frameWire tag p)[i]? = some startByte ↔ i = 0 := by
  cases i with
  | zero => simp [frameWire]
  | succ i =>
    have hout : startByte ∉ stuffAll (frameBody tag p) := not_mem_stuffAll start_not_mem_stuff _
    rw [frameWire, List.getElem?_cons_succ]
    exact ⟨fun h => absurd (List.mem_of_getElem? h) hout, fun h => by simp at h⟩

/-- Settles O10: `stuff` gives out no special byte but the escape marker, before a byte that is not
special; so the stuffed rest of a frame holds no start marker. -/
theorem stuffedFramesHoldNoMarkerInside : Obligations.StuffedFramesHoldNoMarkerInside := by
  refine ⟨fun b => ⟨?start, ?xon, ?xoff⟩, ?pair, unesc_xor, frameWire_getElem?_eq_start_iff⟩
  case start => exact special_not_mem_stuff (x := startByte) rfl (by decide) b
  case xon => exact special_not_mem_stuff (x := xonByte) rfl (by decide) b
  case xoff => exact special_not_mem_stuff (x := xoffByte) rfl (by decide) b
  case pair =>
    intro b x y h
    obtain ⟨hb, rfl, rfl⟩ := stuff_eq_pair h
    exact ⟨rfl, isSpecial_xor_eq_false hb⟩

end Sys2Proof.Machine
end

section
/-! PROOFS. The family `41_checksum_stuffing`, the decoder on a stuffed frame: a stuffed byte acts as
the byte it stands for, so a whole frame leads to the comparison of rule R169, and one flipped bit
makes it fail (rule R135). -/

namespace Sys2Proof.Machine

/-- The two bytes of a length field (rule R65) make up the field. -/
theorem msb_append_lsb (l : Half) : msb l ++ lsb l = l := by
  have hl := l.isLt
  apply BitVec.eq_of_toNat_eq
  rw [toNat_append_add]
  simp only [msb, lsb, BitVec.extractLsb'_toNat, Nat.shiftRight_eq_div_pow]
  omega

/-- Rule R25: DECLEN reads back the length field whose two bytes the decoder holds. -/
theorem declen_of_bytes {s : State} {l : Half} (hm : s.lenMsb = msb l) (hl : s.lenLsb = lsb l) :
    declen s = l := by
  rw [declen, hm, hl, msb_append_lsb]

/-- Rules R164 and R139 (c): inside a frame, the wire bytes of `stuff d` act as the unstuffed
byte `d`. -/
theorem feed_stuff (d : Byte) {s : State} (hkind : s.kind = .none) (hpos : s.pos ≠ 0#16)
    (hesc : s.esc = false) :
    feed (stuff d) s = dispatchByte d (accumulate d s) := by
  have hclear : ({ s with esc := false } : State) = s := by rw [← hesc]
  cases hd : isSpecial d with
  | true =>
    have hsecond : d ^^^ 0x20#8 ≠ startByte := fun h => by
      simpa [h, isSpecial] using isSpecial_xor_eq_false hd
    have hmark : rxStep escByte s = { s with esc := true } := by
      simp [rxStep, hpos, hesc, stepEscape, escByte, startByte]
    rw [stuff_of_isSpecial hd, feed_cons, offerByte_idle hkind, hmark, feed_cons,
      offerByte_idle (by exact hkind), feed_nil]
    simp [rxStep, hpos, hsecond, unstuffed, clearEsc, hclear]
  | false =>
    have hne : d ≠ startByte ∧ d ≠ escByte := by
      constructor <;> rintro rfl <;> simp [isSpecial] at hd
    rw [stuff_of_not_isSpecial hd, feed_cons, offerByte_idle hkind, feed_nil]
    simp [rxStep, hpos, hne, hesc, unstuffed, clearEsc, hclear]

/-- The start marker and the stuffed header of a frame, from POS = 0 (rules R161 and R166 to R168). -/
theorem feed_header (m l tag : Byte) {s : State} (hkind : s.kind = .none) (hpos : s.pos = 0#16) :
    feed (startByte :: stuffAll [m, l, tag]) s =
      { s with
        pos := 4#16, esc := false, rck := ckAdd 0#8 tag, lenMsb := m, lenLsb := l, tag := tag } := by
  have hstart : rxStep startByte s = { s with pos := 1#16, rck := 0#8, esc := false } := by
    simp [rxStep, hpos, stepIdle]
  rw [feed_cons, offerByte_idle hkind, hstart]
  simp [stuffAll, feed_append, feed_stuff, hkind, dispatchByte, accumulate, stepLenMsb,
    stepLenLsb, stepTag]

/-- The decoder inside a frame of type `tag` and `n` payload bytes that fits the buffer, with the
payload `p` so far and no escape pending. -/
structure Receiving (tag : Byte) (n : Nat) (p : List Byte) (s : State) : Prop
    extends CurrentFrame s p where
  kind : s.kind = .none
  esc : s.esc = false
  tag : s.tag = tag
  len : (declen s).toNat = n + 1
  room : n ≤ frameCap s

/-- The byte after a payload is written at the payload's length (rule R61). -/
theorem HoldsPayload.append {m : List Host.Cell} {p : List Byte} (h : HoldsPayload m p) (d : Byte) :
    HoldsPayload (bufWrite m p.length d) (p ++ [d]) := by
  intro i hi
  by_cases hlast : i = p.length
  · subst hlast
    simp [bufRead_bufWrite_same]
  · have hlt : i < p.length := by simp at hi; omega
    rw [bufRead_bufWrite_other _ _ hlast, h i hlt, List.getElem?_append_left hlt]

/-- Past the tag, the header's arms of the decoder's dispatch are out of reach. -/
theorem Receiving.pos_ne {tag : Byte} {n : Nat} {p : List Byte} {s : State}
    (h : Receiving tag n p s) {k : Half} (hk : k.toNat < 4) : s.pos ≠ k := by
  rintro rfl
  have := h.pos
  omega

/-- Rules R169 and R171: after the whole payload comes the checksum, and before that a payload byte,
for which the buffer has room. -/
theorem Receiving.feed_stuff_eq {tag : Byte} {n : Nat} {p : List Byte} {s : State}
    (h : Receiving tag n p s) (hle : p.length ≤ n) (d : Byte) :
    feed (stuff d) s =
      if p.length = n then stepChecksum d { s with rck := ckAdd s.rck d }
      else stepStore d { s with rck := ckAdd s.rck d } := by
  have hpos := h.pos
  have hlen := h.len
  have hroom := h.room
  have hacc : accumulate d s = { s with rck := ckAdd s.rck d } := if_pos (by omega)
  have h1 : s.pos ≠ 1#16 := h.pos_ne (by decide)
  have h2 : s.pos ≠ 2#16 := h.pos_ne (by decide)
  have h3 : s.pos ≠ 3#16 := h.pos_ne (by decide)
  rw [feed_stuff d h.kind (h.pos_ne (by decide)) h.esc, hacc, dispatchByte, if_neg (by exact h1),
    if_neg (by exact h2), if_neg (by exact h3)]
  by_cases hend : p.length = n
  · have hck : s.pos.toNat = (declen s).toNat + 3 := by omega
    rw [if_pos hend, if_pos (by exact hck)]
  · have hck : s.pos.toNat ≠ (declen s).toNat + 3 := by omega
    have hfits : ¬ s.pos.toNat - 4 ≥ frameCap s := by omega
    rw [if_neg hend, if_neg (by exact hck), if_neg (by exact hfits)]

/-- Rule R171 with rule R165: a payload byte extends the payload. -/
theorem Receiving.feed_stuff {tag : Byte} {n : Nat} {p : List Byte} {s : State}
    (h : Receiving tag n p s) (hlt : p.length < n) (d : Byte) :
    Receiving tag n (p ++ [d]) (feed (stuff d) s) := by
  have hpos := h.pos
  have hroom := h.room
  have hcap : frameCap s < 65532 := s.cfg.frameCap.isLt
  have hidx : storeIndex s = p.length := by rw [storeIndex, hpos, Nat.add_sub_cancel]
  rw [h.feed_stuff_eq hlt.le d, if_neg hlt.ne]
  refine ⟨⟨?pos, ?buf, ?rck⟩, h.kind, h.esc, h.tag, h.len, hroom⟩
  case pos => simp [stepStore, hpos]; omega
  case buf =>
    show HoldsPayload (bufWrite s.buf (storeIndex s) d) (p ++ [d])
    rw [hidx]
    exact h.buf.append d
  case rck =>
    show (ckAdd s.rck d).toNat = byteSum (s.tag :: p ++ [d]) % 256
    rw [ckAdd_toNat, h.rck, byteSum_append, Nat.mod_add_mod]
    rfl

/-- A run of payload bytes. -/
theorem Receiving.feed_stuffAll {tag : Byte} {n : Nat} (q : List Byte) :
    ∀ {p : List Byte} {s : State}, Receiving tag n p s → p.length + q.length ≤ n →
      Receiving tag n (p ++ q) (feed (stuffAll q) s) := by
  induction q with
  | nil => intro p s h _; simpa [stuffAll] using h
  | cons d q ih =>
    intro p s h hle
    rw [List.length_cons] at hle
    have hnext := ih (h.feed_stuff (by omega) d) (by simp; omega)
    rw [List.append_assoc] at hnext
    rw [stuffAll, feed_append]
    exact hnext

/-- Rule R169's failing branch: a checksum byte that does not verify ends the frame in
ChecksumFailure. -/
theorem Receiving.feed_stuff_checksumFailure {tag : Byte} {n : Nat} {p : List Byte} {s : State}
    (h : Receiving tag n p s) (hn : p.length = n) {c : Byte} (hc : ¬ ckVerify (tag :: p) c = true) :
    (feed (stuff c) s).kind = .failed ∧ (feed (stuff c) s).err = .checksumFailure := by
  have hbad : ckAdd s.rck c ≠ 0xFF#8 := by
    intro hff
    refine hc ((ckVerify_iff _ _).mpr ?_)
    rw [← Nat.mod_add_mod, ← h.tag, ← h.rck, ← ckAdd_toNat, hff]
    rfl
  rw [h.feed_stuff_eq hn.le c, if_pos hn, stepChecksum, if_neg (by exact hbad)]
  exact ⟨rfl, rfl⟩

/-- A frame's start marker and header put the decoder before its payload. -/
theorem receiving_feed_header (tag : Byte) {n : Nat} {s : State} (hkind : s.kind = .none)
    (hpos : s.pos = 0#16) (hn : n ≤ frameCap s) :
    Receiving tag n []
      (feed (startByte :: stuffAll [msb (lengthField n), lsb (lengthField n), tag]) s) := by
  have hcap : frameCap s < 65532 := s.cfg.frameCap.isLt
  rw [feed_header _ _ _ hkind hpos]
  refine ⟨⟨rfl, fun i hi => by simp at hi, ?rck⟩, hkind, rfl, rfl, ?len, hn⟩
  case rck => simp [ckAdd_toNat, byteSum]
  case len =>
    rw [declen_of_bytes rfl rfl, lengthField, BitVec.toNat_ofNat]
    omega

/-- The wire bytes of a frame with `c` in the place of its checksum (rule R99). -/
def frameWireWith (tag : Byte) (p : List Byte) (c : Byte) : List Byte :=
  startByte :: stuffAll
    ([msb (lengthField p.length), lsb (lengthField p.length), tag] ++ p ++ [c])

theorem frameWire_eq_frameWireWith (tag : Byte) (p : List Byte) :
    frameWire tag p = frameWireWith tag p (ckCompute (tag :: p)) := rfl

theorem feed_frameWireWith (tag : Byte) (p : List Byte) (c : Byte) (s : State) :
    feed (frameWireWith tag p c) s = feed (stuff c) (feed (stuffAll p) (feed (startByte ::
      stuffAll [msb (lengthField p.length), lsb (lengthField p.length), tag]) s)) := by
  have hlast : stuffAll [c] = stuff c := List.append_nil _
  rw [frameWireWith, stuffAll_append, stuffAll_append, hlast, ← List.cons_append,
    ← List.cons_append, feed_append, feed_append]

/-- A whole frame whose last byte does not verify, received from POS = 0. -/
theorem feed_frameWireWith_checksumFailure (tag : Byte) (p : List Byte) {c : Byte} {s : State}
    (hkind : s.kind = .none) (hpos : s.pos = 0#16) (hp : p.length ≤ frameCap s)
    (hc : ¬ ckVerify (tag :: p) c = true) :
    (feed (frameWireWith tag p c) s).kind = .failed ∧
      (feed (frameWireWith tag p c) s).err = .checksumFailure := by
  have hbody : Receiving tag p.length p _ :=
    (receiving_feed_header tag hkind hpos hp).feed_stuffAll p (by simp)
  rw [feed_frameWireWith]
  exact hbody.feed_stuff_checksumFailure rfl hc

/-- RX_POLL is `feed` of all that waits in RXQ, but for RXQ and the response: what it leaves in RXQ
comes after a result, which `feed` holds. -/
theorem exec_rxPoll_eq_feed {s : State} (hkind : s.kind = .none) (q : List Byte) :
    ∃ left, exec .rxPoll { s with rxq := q } =
      .next (respond (statusWord (feed q s) false) { feed q s with rxq := left }) := by
  obtain ⟨used, left, rfl, hpoll, hstop, -⟩ := pollBytes_eq_feed q s
  have hall : feed (used ++ left) s = feed used s := by
    rw [feed_append]
    obtain rfl | hheld := hstop
    · rfl
    · exact feed_held hheld left
  have hexec : exec .rxPoll { s with rxq := used ++ left } = .next (respond
      (statusWord (pollBytes (used ++ left) { s with rxq := used ++ left }) false)
      (pollBytes (used ++ left) { s with rxq := used ++ left })) := by
    rw [exec, execRxPoll, release_of_none (by exact hkind), pollBody]
  refine ⟨left, ?_⟩
  rw [hexec, hpoll, hall]
  rfl

/-- A changed byte changes the sum mod 256, wherever it stands. -/
theorem byteSum_modify_ne {f : Byte → Byte} (hf : ∀ x, f x ≠ x) :
    ∀ {bs : List Byte} {j : Nat}, j < bs.length →
      byteSum (bs.modify j f) % 256 ≠ byteSum bs % 256
  | x :: bs, 0, _ => by
    have hx := x.isLt
    have hfx := (f x).isLt
    have hne : (f x).toNat ≠ x.toNat := fun h => hf x (BitVec.eq_of_toNat_eq h)
    simp only [List.modify_zero_cons, byteSum]
    omega
  | x :: bs, j + 1, hj => by
    have ih := byteSum_modify_ne hf (bs := bs) (j := j) (by simpa using hj)
    simp only [List.modify_succ_cons, byteSum]
    omega

/-- A flipped bit changes the byte. -/
theorem xor_twoPow_ne {k : Nat} (hk : k < 8) (x : Byte) : x ^^^ BitVec.twoPow 8 k ≠ x := by
  intro h
  have hbit := congrArg (fun y : Byte => y.getLsbD k) h
  simp [hk] at hbit

/-- The bytes a checksum closes sum to 0xFF mod 256. -/
theorem ckVerify_iff_byteSum_append (bs : List Byte) (c : Byte) :
    ckVerify bs c = true ↔ byteSum (bs ++ [c]) % 256 = 0xFF := by
  simp [ckVerify_iff, byteSum_append, byteSum]

theorem exists_cons_append_singleton {α : Type} {l : List α} {n : Nat} (h : l.length = n + 2) :
    ∃ a m z, l = a :: m ++ [z] ∧ m.length = n := by
  obtain ⟨a, l, rfl⟩ := List.exists_cons_of_length_eq_add_one h
  obtain rfl | ⟨m, z, rfl⟩ := List.eq_nil_or_concat l
  · simp at h
  · exact ⟨a, m, z, by simp, by simpa using h⟩

/-- Rule R135 on the bytes: a frame's tag, payload and checksum with one bit flipped are a tag, a
payload of the same length and a checksum that does not verify. -/
theorem flipped_frame_not_verified (tag : Byte) (p : List Byte) {j k : Nat}
    (hj : j < p.length + 2) (hk : k < 8) :
    ∃ tag' p' c',
      ([tag] ++ p ++ [ckCompute (tag :: p)]).modify j (fun x => x ^^^ BitVec.twoPow 8 k) =
        tag' :: p' ++ [c'] ∧
      p'.length = p.length ∧ ¬ ckVerify (tag' :: p') c' = true := by
  obtain ⟨tag', p', c', hsplit, hlen⟩ := exists_cons_append_singleton (n := p.length)
    (l := ([tag] ++ p ++ [ckCompute (tag :: p)]).modify j (fun x => x ^^^ BitVec.twoPow 8 k))
    (by simp)
  refine ⟨tag', p', c', hsplit, hlen, ?_⟩
  have hvalid : byteSum ([tag] ++ p ++ [ckCompute (tag :: p)]) % 256 = 0xFF :=
    (ckVerify_iff_byteSum_append (tag :: p) _).mp ((ckVerifyIffComputed _ _).mpr rfl)
  rw [ckVerify_iff_byteSum_append, ← hsplit, ← hvalid]
  exact byteSum_modify_ne (xor_twoPow_ne hk) (by simp; omega)

/-- Settles O57: the flipped bytes no longer verify, so the frame ends in ChecksumFailure. -/
theorem singleBitFlipAlwaysDetected : Obligations.SingleBitFlipAlwaysDetected := by
  intro tag p j k s hkind hpos hp hj hk flipped wire
  obtain ⟨tag', p', c', hflip, hlen, hbad⟩ := flipped_frame_not_verified tag p hj hk
  have hwire : wire = frameWireWith tag' p' c' := by
    simp only [wire, flipped, hflip, frameWireWith, hlen]
    rfl
  obtain ⟨left, hexec⟩ := exec_rxPoll_eq_feed hkind wire
  have hfail := feed_frameWireWith_checksumFailure tag' p' hkind hpos (hlen.trans_le hp) hbad
  rw [← hwire] at hfail
  exact ⟨_, hexec, hfail⟩

end Sys2Proof.Machine
end

section
/-! PROOFS. The family `42_decoder`, what every step keeps: the session invariant (rule R190), the
bounds (rule R198), the accumulator (rule R191) and the COMPLETE frame (rule R192). -/

namespace Sys2Proof.Machine

/-- The parameters and the decoder's registers are the same in both states. -/
structure SameDecoder (s t : State) : Prop where
  cfg : t.cfg = s.cfg
  pos : t.pos = s.pos
  esc : t.esc = s.esc
  rck : t.rck = s.rck
  lenMsb : t.lenMsb = s.lenMsb
  lenLsb : t.lenLsb = s.lenLsb
  tag : t.tag = s.tag
  rxck : t.rxck = s.rxck
  flen : t.flen = s.flen
  kind : t.kind = s.kind
  err : t.err = s.err
  buf : t.buf = s.buf

theorem SameDecoder.declen {s t : State} (h : SameDecoder s t) : declen t = declen s := by
  rw [Machine.declen, Machine.declen, h.lenMsb, h.lenLsb]

theorem SameDecoder.frameCap {s t : State} (h : SameDecoder s t) : frameCap t = frameCap s := by
  rw [Machine.frameCap, Machine.frameCap, h.cfg]

theorem beginFrame_sameDecoder (tag : Byte) (n : Nat) (s : State) :
    SameDecoder s (beginFrame tag n s) := by
  unfold beginFrame
  dsimp only
  split <;> constructor <;> rfl

theorem dataByte_sameDecoder (b : Byte) (s : State) : SameDecoder s (dataByte b s) := by
  unfold dataByte
  dsimp only
  split <;> constructor <;> rfl

/-- A predicate on the decoder's registers is kept by every shared operation once the decoder's own
four keep it. -/
theorem keptByOps_of_decoder {P : State → Prop}
    (hcongr : ∀ {s t : State}, SameDecoder s t → P s → P t)
    (hbyte : ∀ b s, s.kind = .none → P s → P (rxStep b s))
    (hrelease : ∀ s, P s → P (release s))
    (hsession : ∀ s, s.kind = .none → P s → P (resetSession s))
    (hreset : ∀ s, P s → P (resetBlock s)) : KeptByOps P where
  resp _ _ := hcongr (by constructor <;> rfl)
  wait _ _ := hcongr (by constructor <;> rfl)
  agenda _ _ := hcongr (by constructor <;> rfl)
  draws _ _ := hcongr (by constructor <;> rfl)
  rxq _ _ := hcongr (by constructor <;> rfl)
  now _ _ := hcongr (by constructor <;> rfl)
  txlog _ _ := hcongr (by constructor <;> rfl)
  raise _ _ := hcongr (by constructor <;> rfl)
  rxStep := hbyte
  release := hrelease
  session := hsession
  reset := hreset
  beginFrame tag n s _ _ := hcongr (beginFrame_sameDecoder tag n s)
  dataByte b s _ := hcongr (dataByte_sameDecoder b s)

/-- Rule R171's POS + 1 does not wrap: the buffer has room only below POS = 65535. -/
theorem pos_succ_toNat {s : State} (hroom : s.pos.toNat - 4 < frameCap s) :
    (s.pos + 1#16).toNat = s.pos.toNat + 1 := by
  have hcap : frameCap s < 65532 := s.cfg.frameCap.isLt
  rw [BitVec.toNat_add, BitVec.toNat_ofNat]
  omega

/-! Rule R190. -/

theorem SessionInv.congr {s t : State} (h : SameDecoder s t) (hs : SessionInv s) :
    SessionInv t := by
  obtain ⟨hidle, hheader, hheld, herror⟩ := hs
  constructor <;> rw [h.kind] <;> simpa only [h.pos, h.esc, h.rck, h.err, h.cfg]

/-- Clause (c) of rule R190 at a terminal event, which ends the session (rule R172). -/
theorem finish_sessionInv {k : Kind} {e : Err} (s : State) (hk : k ≠ .none)
    (he : e = .none ↔ k ≠ .failed) : SessionInv (finish k e s) where
  idle hnone := absurd hnone hk
  header hnone := absurd hnone hk
  held _ := ⟨rfl, rfl, .inl rfl⟩
  error := he

theorem stepRestart_sessionInv (s : State) : SessionInv (stepRestart s) := by
  rw [stepRestart_eq]
  refine ⟨nofun, nofun, fun _ => ⟨rfl, rfl, ?_⟩, by simp⟩
  by_cases hr : s.cfg.restart = .resync <;> simp [hr]

/-- Past the tag, rule R190 asks nothing of an idle session but ERR = 0. -/
theorem sessionInv_of_four_le_pos {t : State} (hkind : t.kind = .none) (hpos : 4 ≤ t.pos.toNat)
    (herr : t.err = .none) : SessionInv t where
  idle _ h0 := by simp [h0] at hpos
  header _ h123 := by rcases h123 with h | h | h <;> simp [h] at hpos
  held h := absurd hkind h
  error := by simp [hkind, herr]

theorem SessionInv.err_of_none {s : State} (h : SessionInv s) (hkind : s.kind = .none) :
    s.err = .none := h.error.mpr (by simp [hkind])

theorem DataByteCases.sessionInv {d : Byte} {s t : State} (h : DataByteCases d s t)
    (hkind : s.kind = .none) (hs : SessionInv s) : SessionInv t := by
  have herr := hs.err_of_none hkind
  have hrck := hs.header hkind
  cases h with
  | lenMsb h1 => exact ⟨nofun, fun _ _ => hrck (.inl h1), absurd hkind, hs.error⟩
  | lenLsb h2 => exact ⟨nofun, fun _ _ => hrck (.inr (.inl h2)), absurd hkind, hs.error⟩
  | tag h3 => exact sessionInv_of_four_le_pos hkind (by simp) herr
  | complete | checksumFailure | oversize => exact finish_sessionInv _ (by decide) (by decide)
  | store h4 _ hroom =>
    refine sessionInv_of_four_le_pos hkind ?_ herr
    have hnext := pos_succ_toNat hroom
    show 4 ≤ (s.pos + 1#16).toNat
    omega

theorem rxStep_sessionInv (b : Byte) (s : State) (hkind : s.kind = .none) (hs : SessionInv s) :
    SessionInv (rxStep b s) := by
  rcases rxStep_cases b s with ⟨_, _, h⟩ | ⟨_, _, h⟩ | ⟨_, _, h⟩ | ⟨hpos, _, _, h⟩ | ⟨_, _, h⟩
  case inl => rw [h]; exact ⟨nofun, fun _ _ => rfl, absurd hkind, hs.error⟩
  case inr.inl => rwa [h]
  case inr.inr.inl => rw [h]; exact stepRestart_sessionInv s
  case inr.inr.inr.inl =>
    rw [h]; exact ⟨fun _ h0 => absurd h0 hpos, hs.header, absurd hkind, hs.error⟩
  case inr.inr.inr.inr => exact h.sessionInv hkind hs

/-- Rule R313: the release of a result leaves POS at 0, or at 1 after a RESYNC restart. -/
theorem release_sessionInv (s : State) (hs : SessionInv s) : SessionInv (release s) := by
  by_cases hkind : s.kind = .none
  · rwa [release_of_none hkind]
  · obtain ⟨hesc, hrck, -⟩ := hs.held hkind
    refine ⟨?idle, ?header, absurd (release_kind s), by simp [release_err, hkind]⟩
    case idle => simp [hesc, hrck]
    case header => simp [hrck]

theorem resetSession_sessionInv (s : State) (hkind : s.kind = .none) (hs : SessionInv s) :
    SessionInv (resetSession s) :=
  ⟨fun _ _ => ⟨rfl, rfl⟩, fun _ _ => rfl, absurd hkind, hs.error⟩

theorem resetBlock_sessionInv (s : State) : SessionInv (resetBlock s) := by
  constructor <;> simp

theorem sessionInv_keptByOps : KeptByOps SessionInv :=
  keptByOps_of_decoder .congr rxStep_sessionInv release_sessionInv resetSession_sessionInv
    fun s _ => resetBlock_sessionInv s

/-- Settles O47: each operation of the decoder keeps the four clauses, and power-on gives an idle
session. -/
theorem sessionInvariantKept : Obligations.SessionInvariantKept := by
  refine ⟨fun _ _ => sessionInv_keptByOps.step, fun c q n a => ?_⟩
  exact .congr (by constructor <;> rfl) (resetBlock_sessionInv (State.powerOn c q n))

/-! Rule R198. -/

theorem BoundsInv.congr {s t : State} (h : SameDecoder s t) (hs : BoundsInv s) : BoundsInv t := by
  obtain ⟨hpos, hflen, hbuf⟩ := hs
  constructor <;> simpa only [h.frameCap, h.pos, h.flen, h.buf]

/-- FLEN at a terminal event (rule R172), as a number. -/
theorem finish_flen_toNat (k : Kind) (e : Err) (s : State) :
    (finish k e s).flen.toNat = s.pos.toNat - 4 := by
  have hlt := s.pos.isLt
  rw [finish_flen, BitVec.toNat_ofNat, written]
  split <;> omega

/-- The bounds of rule R198 are kept where FLEN and the buffer stay and the new POS is in bounds. -/
theorem BoundsInv.of_pos_le {s t : State} (hs : BoundsInv s) (hcap : frameCap t = frameCap s)
    (hflen : t.flen = s.flen) (hbuf : t.buf = s.buf) (hpos : t.pos.toNat ≤ frameCap s + 4) :
    BoundsInv t :=
  ⟨by rwa [hcap], by rw [hcap, hflen]; exact hs.flen, by rw [hcap, hbuf]; exact hs.buf⟩

theorem finish_boundsInv (k : Kind) (e : Err) {s : State} (hs : BoundsInv s) :
    BoundsInv (finish k e s) := by
  refine ⟨Nat.zero_le _, ?_, hs.buf⟩
  have hpos := hs.pos
  rw [finish_flen_toNat, show frameCap (finish k e s) = frameCap s from rfl]
  omega

theorem stepRestart_boundsInv {s : State} (hs : BoundsInv s) : BoundsInv (stepRestart s) := by
  rw [stepRestart_eq]
  refine (finish_boundsInv .failed .unexpectedRestart hs).of_pos_le rfl rfl rfl ?_
  by_cases hr : s.cfg.restart = .resync <;> simp [hr]

theorem DataByteCases.boundsInv {d : Byte} {s t : State} (h : DataByteCases d s t)
    (hs : BoundsInv s) : BoundsInv t := by
  cases h with
  | lenMsb | lenLsb | tag => exact hs.of_pos_le rfl rfl rfl (by simp)
  | complete | checksumFailure => exact finish_boundsInv _ _ (hs.of_pos_le rfl rfl rfl hs.pos)
  | oversize => exact finish_boundsInv _ _ hs
  | store h4 _ hroom =>
    refine ⟨?pos, hs.flen, fun i hi => ?index⟩
    case pos =>
      have hnext := pos_succ_toNat hroom
      show (s.pos + 1#16).toNat ≤ frameCap s + 4
      omega
    case index =>
      by_cases hi' : i = storeIndex s
      · rw [hi']; exact hroom
      · rw [bufRead_bufWrite_other _ _ hi'] at hi
        exact hs.buf i hi

theorem rxStep_boundsInv (b : Byte) (s : State) (hs : BoundsInv s) : BoundsInv (rxStep b s) := by
  rcases rxStep_cases b s with ⟨_, _, h⟩ | ⟨_, _, h⟩ | ⟨_, _, h⟩ | ⟨_, _, _, h⟩ | ⟨_, _, h⟩
  case inl => rw [h]; exact hs.of_pos_le rfl rfl rfl (by simp)
  case inr.inl => rwa [h]
  case inr.inr.inl => rw [h]; exact stepRestart_boundsInv hs
  case inr.inr.inr.inl => rw [h]; exact hs.of_pos_le rfl rfl rfl hs.pos
  case inr.inr.inr.inr => exact h.boundsInv hs

theorem release_boundsInv (s : State) (hs : BoundsInv s) : BoundsInv (release s) :=
  hs.of_pos_le (by simp [frameCap]) (by simp) (by simp) (by simpa using hs.pos)

theorem resetSession_boundsInv (s : State) (hs : BoundsInv s) : BoundsInv (resetSession s) :=
  hs.of_pos_le rfl rfl rfl (by simp)

theorem resetBlock_boundsInv (s : State) : BoundsInv (resetBlock s) := by
  constructor <;> simp

theorem boundsInv_keptByOps : KeptByOps BoundsInv :=
  keptByOps_of_decoder .congr (fun b s _ => rxStep_boundsInv b s) release_boundsInv
    (fun s _ => resetSession_boundsInv s) fun s _ => resetBlock_boundsInv s

/-- Settles O48: a byte is stored only where the buffer has room, and POS only grows by storing one;
FLEN is taken from POS. -/
theorem boundsKept : Obligations.BoundsKept := by
  refine ⟨fun _ _ => boundsInv_keptByOps.step, fun c q n a => ?_⟩
  exact .congr (by constructor <;> rfl) (resetBlock_boundsInv (State.powerOn c q n))

/-! Rule R191. -/

/-- A frame just past its tag has an empty payload, and RCK is the tag (rule R168). -/
theorem currentFrame_nil {s : State} (hpos : s.pos = 4#16) (hrck : s.rck = ckAdd 0#8 s.tag) :
    CurrentFrame s [] :=
  ⟨by rw [hpos]; rfl, fun i hi => by simp at hi, by simp [hrck, ckAdd_toNat, byteSum]⟩

/-- Rule R171 with rule R165: a stored byte extends the payload of the frame in progress. -/
theorem CurrentFrame.store {s : State} {p : List Byte} (h : CurrentFrame s p) (d : Byte)
    (hroom : s.pos.toNat - 4 < frameCap s) :
    CurrentFrame { s with
      esc := false
      rck := ckAdd s.rck d
      buf := bufWrite s.buf (storeIndex s) d
      pos := s.pos + 1#16 } (p ++ [d]) := by
  have hidx : storeIndex s = p.length := by rw [storeIndex, h.pos, Nat.add_sub_cancel]
  refine ⟨?pos, ?buf, ?rck⟩
  case pos =>
    refine (pos_succ_toNat hroom).trans ?_
    rw [h.pos, List.length_append, List.length_singleton]
  case buf =>
    rw [hidx]
    exact h.buf.append d
  case rck =>
    show (ckAdd s.rck d).toNat = byteSum (s.tag :: p ++ [d]) % 256
    rw [ckAdd_toNat, h.rck, byteSum_append, Nat.mod_add_mod]
    rfl

/-- Below POS = 4 rule R191 asks nothing. -/
theorem accumInv_of_pos_lt {t : State} (h : t.pos.toNat < 4) : AccumInv t :=
  fun _ h4 => absurd h4 (by omega)

/-- While a result is held rule R191 asks nothing. -/
theorem accumInv_of_held {t : State} (h : t.kind ≠ .none) : AccumInv t :=
  fun hkind _ => absurd hkind h

theorem DataByteCases.accumInv {d : Byte} {s t : State} (h : DataByteCases d s t)
    (hkind : s.kind = .none) (hsess : SessionInv s) (hs : AccumInv s) : AccumInv t := by
  cases h with
  | lenMsb | lenLsb => exact accumInv_of_pos_lt (by simp)
  | tag h3 =>
    refine fun _ _ => ⟨[], currentFrame_nil rfl ?_⟩
    show ckAdd s.rck d = ckAdd 0#8 d
    rw [hsess.header hkind (.inr (.inr h3))]
  | complete | checksumFailure | oversize => exact accumInv_of_held (by simp)
  | store h4 _ hroom =>
    obtain ⟨p, hp⟩ := hs hkind h4
    exact fun _ _ => ⟨p ++ [d], hp.store d hroom⟩

theorem rxStep_accumInv (b : Byte) (s : State) (hkind : s.kind = .none) (hsess : SessionInv s)
    (hs : AccumInv s) : AccumInv (rxStep b s) := by
  rcases rxStep_cases b s with ⟨_, _, h⟩ | ⟨_, _, h⟩ | ⟨_, _, h⟩ | ⟨_, _, _, h⟩ | ⟨_, _, h⟩
  case inl => rw [h]; exact accumInv_of_pos_lt (by simp)
  case inr.inl => rwa [h]
  case inr.inr.inl => rw [h, stepRestart_eq]; exact accumInv_of_held (by simp)
  case inr.inr.inr.inl => rw [h]; exact hs.congr rfl rfl rfl rfl rfl
  case inr.inr.inr.inr => exact h.accumInv hkind hsess hs

/-- A released result leaves POS below 4 by rule R190. -/
theorem release_accumInv (s : State) (hsess : SessionInv s) (hs : AccumInv s) :
    AccumInv (release s) := by
  by_cases hkind : s.kind = .none
  · rwa [release_of_none hkind]
  · obtain ⟨-, -, hpos⟩ := hsess.held hkind
    apply accumInv_of_pos_lt
    rcases hpos with h | ⟨h, -⟩ <;> simp [h]

/-! Rule R192. -/

theorem CompleteInv.congr {s t : State} (h : SameDecoder s t) (hs : CompleteInv s) :
    CompleteInv t := by
  simpa only [CompleteInv, h.kind, h.declen, h.frameCap, h.flen, h.buf, h.rxck, h.tag]

/-- Without a COMPLETE frame rule R192 asks nothing. -/
theorem completeInv_of_kind_ne {t : State} (h : t.kind ≠ .complete) : CompleteInv t :=
  fun hkind => absurd hkind h

/-- Rule R169 with rule R133: the byte that brings RCK to 0xFF is the checksum of what RCK sums. -/
theorem eq_ckCompute_of_ckAdd {acc d : Byte} {bs : List Byte} (hacc : acc.toNat = byteSum bs % 256)
    (h : ckAdd acc d = 0xFF#8) : d = ckCompute bs := by
  refine (ckVerifyIffComputed bs d).mp ((ckVerify_iff bs d).mpr ?_)
  rw [← Nat.mod_add_mod, ← hacc, ← ckAdd_toNat, h]
  rfl

/-- Rule R169 at the end of the frame in progress: POS at the checksum position gives the length. -/
theorem CurrentFrame.completeInv {d : Byte} {s : State} {p : List Byte} (h : CurrentFrame s p)
    (hbounds : BoundsInv s) (hend : s.pos.toNat = (declen s).toNat + 3)
    (hrck : ckAdd s.rck d = 0xFF#8) : CompleteInv (finish .complete .none { s with rxck := d }) := by
  intro _
  have hpos := h.pos
  have hcap := hbounds.pos
  have hflen : (finish .complete .none { s with rxck := d }).flen.toNat = s.pos.toNat - 4 :=
    finish_flen_toNat _ _ _
  refine ⟨?declen, ?flen, ?cap, p, ?length, h.buf, eq_ckCompute_of_ckAdd h.rck hrck⟩
  case declen => show 1 ≤ (declen s).toNat; omega
  case flen => show _ = (declen s).toNat - 1; omega
  case cap => show _ ≤ frameCap s; omega
  case length => omega

theorem DataByteCases.completeInv {d : Byte} {s t : State} (h : DataByteCases d s t)
    (hkind : s.kind = .none) (hbounds : BoundsInv s) (hacc : AccumInv s) : CompleteInv t := by
  cases h with
  | complete h4 hend hrck =>
    obtain ⟨p, hp⟩ := hacc hkind h4
    exact hp.completeInv hbounds hend hrck
  | checksumFailure | oversize => exact completeInv_of_kind_ne (by simp)
  | lenMsb | lenLsb | tag | store => exact completeInv_of_kind_ne (by simp [hkind])

theorem rxStep_completeInv (b : Byte) (s : State) (hkind : s.kind = .none) (hbounds : BoundsInv s)
    (hacc : AccumInv s) : CompleteInv (rxStep b s) := by
  rcases rxStep_cases b s with ⟨_, _, h⟩ | ⟨_, _, h⟩ | ⟨_, _, h⟩ | ⟨_, _, _, h⟩ | ⟨_, _, h⟩
  case inr.inr.inl => rw [h, stepRestart_eq]; exact completeInv_of_kind_ne (by simp)
  case inr.inr.inr.inr => exact h.completeInv hkind hbounds hacc
  all_goals rw [h]; exact completeInv_of_kind_ne (by simp [hkind])

/-- The four invariants of the decoder together: R192 rests on R191 and R198, and R191 on R190. -/
structure DecoderInv (s : State) : Prop where
  session : SessionInv s
  bounds : BoundsInv s
  accum : AccumInv s
  complete : CompleteInv s

theorem DecoderInv.congr {s t : State} (h : SameDecoder s t) (hs : DecoderInv s) : DecoderInv t :=
  ⟨hs.session.congr h, hs.bounds.congr h, hs.accum.congr h.kind h.pos h.buf h.tag h.rck,
    hs.complete.congr h⟩

theorem resetBlock_decoderInv (s : State) : DecoderInv (resetBlock s) :=
  ⟨resetBlock_sessionInv s, resetBlock_boundsInv s, accumInv_of_pos_lt (by simp),
    completeInv_of_kind_ne (by simp)⟩

theorem decoderInv_keptByOps : KeptByOps DecoderInv := by
  refine keptByOps_of_decoder .congr ?byte ?release ?session fun s _ => resetBlock_decoderInv s
  case byte =>
    intro b s hkind ⟨hsess, hbounds, hacc, _⟩
    exact ⟨rxStep_sessionInv b s hkind hsess, rxStep_boundsInv b s hbounds,
      rxStep_accumInv b s hkind hsess hacc, rxStep_completeInv b s hkind hbounds hacc⟩
  case release =>
    intro s ⟨hsess, hbounds, hacc, _⟩
    exact ⟨release_sessionInv s hsess, release_boundsInv s hbounds, release_accumInv s hsess hacc,
      completeInv_of_kind_ne (by simp)⟩
  case session =>
    intro s hkind ⟨hsess, hbounds, _, _⟩
    exact ⟨resetSession_sessionInv s hkind hsess, resetSession_boundsInv s hbounds,
      accumInv_of_pos_lt (by simp), completeInv_of_kind_ne (by simp [hkind])⟩

/-- Settles O50: the step may take many bytes, so it is the four invariants together that every
operation keeps; the byte that completes a frame closes the payload and the sum of rule R191. -/
theorem completeFrameIsVerified : Obligations.CompleteFrameIsVerified := by
  refine ⟨fun _ _ hsess hbounds hacc hcomplete hstep => ?step, fun c q n a => ?powerOn⟩
  case step => exact (decoderInv_keptByOps.step ⟨hsess, hbounds, hacc, hcomplete⟩ hstep).complete
  case powerOn => exact completeInv_of_kind_ne nofun

end Sys2Proof.Machine
end

section
/-! PROOFS. The family `42_decoder`, one byte given by RX_BYTE: the idle byte, the restart, the
escape marker, the header, the checksum position and the full buffer (rules R161 to R170 and R197). -/

namespace Sys2Proof.Machine

/-- Rule R180: RX_BYTE while no result is held. -/
theorem exec_rxByte_of_idle {b : Byte} {s t : State} (hkind : s.kind = .none)
    (hstep : rxStep b s = t) : exec (.rxByte b) s = .next (accepted t) := by
  rw [exec, execRxByte, giveByte, if_neg (by simp [hkind]), hstep]
  rfl

/-- Rule R160's first line. -/
theorem rxStep_of_pos_zero {s : State} (hpos : s.pos = 0#16) (b : Byte) :
    rxStep b s = stepIdle b s := if_pos hpos

/-- Rule R160's second line. -/
theorem rxStep_start {s : State} (hpos : s.pos ≠ 0#16) : rxStep startByte s = stepRestart s := by
  rw [rxStep, if_neg hpos, if_pos rfl]

/-- Rule R160's third line. -/
theorem rxStep_esc {s : State} (hpos : s.pos ≠ 0#16) (hesc : s.esc = false) :
    rxStep escByte s = { s with esc := true } := by
  rw [rxStep, if_neg hpos, if_neg (by decide), if_pos ⟨hesc, rfl⟩, stepEscape]

/-- A byte that rule R164 unstuffs: no start marker, and no escape marker that opens an escape. -/
structure IsDataByte (b : Byte) (s : State) : Prop where
  notStart : b ≠ startByte
  notEscape : ¬(s.esc = false ∧ b = escByte)

/-- Rule R160's last lines. -/
theorem IsDataByte.rxStep_eq {b : Byte} {s : State} (h : IsDataByte b s) (hpos : s.pos ≠ 0#16) :
    rxStep b s = dispatchByte (unstuffed b s) (accumulate (unstuffed b s) (clearEsc s)) := by
  rw [rxStep, if_neg hpos, if_neg h.notStart, if_neg h.notEscape]

theorem pos_ne_of_four_le {s : State} (h : 4 ≤ s.pos.toNat) {k : Half} (hk : k.toNat < 4) :
    s.pos ≠ k := by
  rintro rfl
  omega

/-- Past the tag, an unstuffed byte enters RCK and is a checksum, too much, or payload. -/
theorem IsDataByte.rxStep_of_four_le {b : Byte} {s : State} (h : IsDataByte b s)
    (h4 : 4 ≤ s.pos.toNat) :
    rxStep b s =
      let t := { s with esc := false, rck := ckAdd s.rck (unstuffed b s) }
      if s.pos.toNat = (declen s).toNat + 3 then stepChecksum (unstuffed b s) t
      else if frameCap s ≤ s.pos.toNat - 4 then stepOversize t
      else stepStore (unstuffed b s) t := by
  have hacc : ∀ d, accumulate d (clearEsc s) = { s with esc := false, rck := ckAdd s.rck d } :=
    fun d => if_pos (show 3 ≤ s.pos.toNat by omega)
  rw [h.rxStep_eq (pos_ne_of_four_le h4 (by decide)), hacc, dispatchByte,
    if_neg (pos_ne_of_four_le h4 (by decide)), if_neg (pos_ne_of_four_le h4 (by decide)),
    if_neg (pos_ne_of_four_le h4 (by decide))]
  rfl

/-- Settles O12: at POS = 0 `rx_step` is `stepIdle`. -/
theorem idleByteStartsFrameOrIsNoise : Obligations.IdleByteStartsFrameOrIsNoise := by
  intro b s hkind hpos
  exact exec_rxByte_of_idle hkind (rxStep_of_pos_zero hpos b)

/-- Settles O13: the restart is the terminal event UnexpectedRestart, with POS by the policy. -/
theorem restartByteFailsFrame : Obligations.RestartByteFailsFrame := by
  intro s hkind hpos
  exact exec_rxByte_of_idle hkind ((rxStep_start hpos).trans (stepRestart_eq s))

/-- Settles O14: the escape marker is the third line of `rx_step`. -/
theorem escapeMarkerSetsEscOnly : Obligations.EscapeMarkerSetsEscOnly := by
  intro s hkind hpos hesc
  exact exec_rxByte_of_idle hkind (rxStep_esc hpos hesc)

/-- Settles O15: below the checksum positions the dispatch is on POS alone, and RCK takes the byte
from POS = 3 on. -/
theorem headerBytesFillLengthAndTag : Obligations.HeaderBytesFillLengthAndTag := by
  intro b d s hkind hstart hesc hd
  have hdata : IsDataByte b s := ⟨hstart, hesc⟩
  have hd : unstuffed b s = d := hd.symm
  refine ⟨fun hpos => exec_rxByte_of_idle hkind ?lenMsb,
    fun hpos => exec_rxByte_of_idle hkind ?lenLsb, fun hpos => exec_rxByte_of_idle hkind ?tag⟩ <;>
    rw [hdata.rxStep_eq (by simp [hpos]), hd]
  case lenMsb => simp [dispatchByte, accumulate, clearEsc, hpos, stepLenMsb]
  case lenLsb => simp [dispatchByte, accumulate, clearEsc, hpos, stepLenLsb]
  case tag => simp [dispatchByte, accumulate, clearEsc, hpos, stepTag, ckAdd_eq_add]

/-- Rule R169 as one update: KIND and ERR by RCK, the terminal event's reset, and FLEN from POS. -/
theorem stepChecksum_eq (d : Byte) (s : State) :
    stepChecksum d s = { s with
      rxck := d
      kind := if s.rck = 0xFF#8 then .complete else .failed
      err := if s.rck = 0xFF#8 then .none else .checksumFailure
      flen := BitVec.ofNat 16 (written s.pos.toNat)
      pos := 0#16
      rck := 0#8
      esc := false } := by
  by_cases hrck : s.rck = 0xFF#8 <;> simp [stepChecksum, hrck, finish, resetSession]

theorem written_of_four_le {p : Nat} (h : 4 ≤ p) : written p = p - 4 := if_pos h

/-- Settles O16: the checksum position is tested first, so the byte ends the frame by rule R169. -/
theorem checksumByteEndsFrame : Obligations.ChecksumByteEndsFrame := by
  intro b d s hkind hstart hesc hd h4 hend
  have hdata : IsDataByte b s := ⟨hstart, hesc⟩
  have hd : unstuffed b s = d := hd.symm
  have hflen : written s.pos.toNat = 256 * s.lenMsb.toNat + s.lenLsb.toNat - 1 := by
    rw [written_of_four_le h4, hend]
    omega
  refine exec_rxByte_of_idle hkind ?_
  rw [hdata.rxStep_of_four_le h4, declen_toNat, if_pos hend, stepChecksum_eq, hd, ckAdd_eq_add,
    ← hflen]

/-- Settles O17: away from the checksum position a byte without room is the terminal event
FrameTooLarge. -/
theorem oversizeByteFailsFrame : Obligations.OversizeByteFailsFrame := by
  intro b d s hkind hstart hesc hd h4 hend hfull
  have hdata : IsDataByte b s := ⟨hstart, hesc⟩
  have hflen := finish_flen_toNat .failed .frameTooLarge s
  refine ⟨(finish .failed .frameTooLarge s).flen, hflen, fun hbound => by omega, ?_⟩
  refine exec_rxByte_of_idle hkind ?_
  rw [hdata.rxStep_of_four_le h4, declen_toNat, if_neg hend]
  exact if_pos hfull

/-- Settles O59: the checksum position DECLEN + 3 = 3 lies before the payload, so past the tag every
unstuffed byte is payload or too much. -/
theorem zeroLengthNeverCompletes : Obligations.ZeroLengthNeverCompletes := by
  intro b d s hkind hlen hd
  constructor
  case left =>
    intro hpos hstart hesc
    obtain ⟨-, -, htag⟩ := headerBytesFillLengthAndTag b d s hkind hstart hesc hd
    exact ⟨_, htag hpos, hkind, rfl, rfl, hlen⟩
  case right =>
    intro h4
    have hpos : s.pos ≠ 0#16 := pos_ne_of_four_le h4 (by decide)
    have hend : s.pos.toNat ≠ (declen s).toNat + 3 := by omega
    refine ⟨?restart, ?escape, ?store, ?oversize⟩
    case restart =>
      rintro rfl
      exact ⟨_, restartByteFailsFrame s hkind hpos, rfl, rfl⟩
    case escape =>
      rintro hesc rfl
      exact escapeMarkerSetsEscOnly s hkind hpos hesc
    case store =>
      intro hstart hesc hroom
      have hdata : IsDataByte b s := ⟨hstart, hesc⟩
      have hd : unstuffed b s = d := hd.symm
      have hfits : ¬ frameCap s ≤ s.pos.toNat - 4 := Nat.not_le.mpr hroom
      refine ⟨_, exec_rxByte_of_idle hkind rfl, ?_⟩
      rw [hdata.rxStep_of_four_le h4, if_neg hend, if_neg hfits, hd]
      exact ⟨hkind, hlen, pos_succ_toNat hroom, bufRead_bufWrite_same _ _ _⟩
    case oversize =>
      intro hstart hesc hfull
      rw [declen_toNat] at hend
      obtain ⟨flen, -, -, hexec⟩ :=
        oversizeByteFailsFrame b d s hkind hstart hesc hd h4 hend hfull
      exact ⟨_, hexec, rfl, rfl⟩

end Sys2Proof.Machine
end

section
/-! PROOFS. The family `42_decoder`, what a run of bytes leaves behind: noise at POS = 0 (rule R195)
and the restart under RESYNC (rule R194). -/

namespace Sys2Proof.Machine

/-- Rule R161: at POS = 0 a byte that is no start marker is discarded. -/
theorem rxStep_noise {s : State} (hpos : s.pos = 0#16) {b : Byte} (hb : b ≠ startByte) :
    rxStep b s = s := by
  rw [rxStep_of_pos_zero hpos, stepIdle, if_neg hb]

/-- Rule R195 for RX_POLL's loop. -/
theorem pollBody_noise {s : State} (hkind : s.kind = .none) (hpos : s.pos = 0#16)
    (rest : List Byte) :
    ∀ bs : List Byte, startByte ∉ bs →
      pollBody { s with rxq := bs ++ rest } = pollBody { s with rxq := rest }
  | [], _ => rfl
  | b :: bs, hnoise => by
    rw [List.mem_cons, not_or] at hnoise
    obtain ⟨hb, hbs⟩ := hnoise
    rw [← pollBody_noise hkind hpos rest bs hbs]
    exact (pollBytes_cons (by exact hkind) b _).trans
      (congrArg _ (rxStep_noise (by exact hpos) (Ne.symm hb)))

theorem release_with_rxq (s : State) (q : List Byte) :
    release { s with rxq := q } = { release s with rxq := q } := by
  by_cases hkind : s.kind = .none <;> simp [release, hkind]

/-- Settles O58: the loop takes noise off one byte at a time, and what follows a frame's start marker
is stuffed, so it holds no other. -/
theorem noiseIsSkippedToNextStart : Obligations.NoiseIsSkippedToNextStart := by
  constructor
  case left =>
    intro bs rest s hpos hnoise
    have hskip := pollBody_noise (release_kind s) ((release_pos s).trans hpos) rest bs hnoise
    simp only [exec, execRxPoll, release_with_rxq, hskip]
  case right =>
    intro tag p q hsuffix hne
    obtain heq | htail := List.suffix_cons_iff.mp hsuffix
    · exact absurd heq hne
    · exact fun hmem => not_mem_stuffAll start_not_mem_stuff _ (htail.subset hmem)

/-- Rule R194's agreement of two decoders, `t` with `s`: on everything but FLEN while no result is
held, and on FLEN too once one is. -/
def SameButFlen (s t : State) : Prop :=
  (s.kind = .none ∧ ∃ f, t = { s with flen := f }) ∨ (s.kind ≠ .none ∧ t = s)

theorem sameButFlen_of_idle {s t : State} (hkind : s.kind = .none) (f : Half)
    (h : t = { s with flen := f }) : SameButFlen s t := .inl ⟨hkind, f, h⟩

theorem sameButFlen_of_held {s : State} (hkind : s.kind ≠ .none) : SameButFlen s s :=
  .inr ⟨hkind, rfl⟩

theorem stepChecksum_kind_ne_none (d : Byte) (s : State) : (stepChecksum d s).kind ≠ .none := by
  unfold stepChecksum
  split <;> simp

/-- A byte reads no FLEN, and writes it where it ends a frame. -/
theorem dispatchByte_sameButFlen (d : Byte) {s : State} (hkind : s.kind = .none) (f : Half) :
    SameButFlen (dispatchByte d s) (dispatchByte d { s with flen := f }) := by
  have hread : dispatchByte d { s with flen := f } =
      if s.pos = 1#16 then stepLenMsb d { s with flen := f }
      else if s.pos = 2#16 then stepLenLsb d { s with flen := f }
      else if s.pos = 3#16 then stepTag d { s with flen := f }
      else if s.pos.toNat = (declen s).toNat + 3 then stepChecksum d s
      else if s.pos.toNat - 4 ≥ frameCap s then stepOversize s
      else stepStore d { s with flen := f } := rfl
  rw [hread]
  unfold dispatchByte
  split; · exact sameButFlen_of_idle hkind f rfl
  split; · exact sameButFlen_of_idle hkind f rfl
  split; · exact sameButFlen_of_idle hkind f rfl
  split
  · exact sameButFlen_of_held (stepChecksum_kind_ne_none d s)
  split
  · exact sameButFlen_of_held (by simp [stepOversize])
  · exact sameButFlen_of_idle hkind f rfl

theorem accumulate_with_flen (d : Byte) (s : State) (f : Half) :
    accumulate d { s with flen := f } = { accumulate d s with flen := f } := by
  rw [accumulate, accumulate]
  split <;> rfl

theorem accumulate_kind (d : Byte) (s : State) : (accumulate d s).kind = s.kind := by
  rw [accumulate]
  split <;> rfl

theorem rxStep_sameButFlen (b : Byte) {s : State} (hkind : s.kind = .none) (f : Half) :
    SameButFlen (rxStep b s) (rxStep b { s with flen := f }) := by
  by_cases hpos : s.pos = 0#16
  · rw [rxStep_of_pos_zero hpos, rxStep_of_pos_zero (by exact hpos)]
    unfold stepIdle
    split <;> exact sameButFlen_of_idle hkind f rfl
  by_cases hstart : b = startByte
  · rw [hstart, rxStep_start hpos, rxStep_start (by exact hpos), stepRestart_eq, stepRestart_eq]
    exact sameButFlen_of_held (by simp)
  by_cases hesc : s.esc = false ∧ b = escByte
  · rw [hesc.2, rxStep_esc hpos hesc.1, rxStep_esc (by exact hpos) (by exact hesc.1)]
    exact sameButFlen_of_idle hkind f rfl
  have hdata : IsDataByte b s := ⟨hstart, hesc⟩
  have hdata' : IsDataByte b { s with flen := f } := ⟨hstart, hesc⟩
  rw [hdata.rxStep_eq hpos, hdata'.rxStep_eq (by exact hpos),
    show unstuffed b { s with flen := f } = unstuffed b s from rfl,
    show clearEsc { s with flen := f } = { clearEsc s with flen := f } from rfl,
    accumulate_with_flen _ _ f]
  exact dispatchByte_sameButFlen _ ((accumulate_kind _ (clearEsc s)).trans hkind) f

theorem feed_sameButFlen (bs : List Byte) {s t : State} (h : SameButFlen s t) :
    SameButFlen (feed bs s) (feed bs t) := by
  induction bs generalizing s t with
  | nil => exact h
  | cons b bs ih =>
    rw [feed_cons, feed_cons]
    refine ih ?_
    obtain ⟨hkind, f, rfl⟩ | ⟨hkind, rfl⟩ := h
    · rw [offerByte_idle hkind, offerByte_idle (by exact hkind)]
      exact rxStep_sameButFlen b hkind f
    · rw [offerByte_held hkind]
      exact sameButFlen_of_held hkind

/-- The decoder just past a start marker: no byte of the frame yet, and no residue of another. -/
def afterStart (s : State) : State :=
  { s with pos := 1#16, rck := 0#8, esc := false, err := .none }

theorem runAll_cons {i : Instr} {s t : State} (h : exec i s = .next t) (is : List Instr) :
    runAll (i :: is) s = runAll is t := by
  rw [runAll, h]

/-- Rules R162 and R313: a restart under RESYNC and its release leave only FLEN behind. -/
theorem runAll_restart_release {s : State} (hkind : s.kind = .none) (hpos : s.pos ≠ 0#16)
    (hresync : s.cfg.restart = .resync) (is : List Instr) :
    ∃ f r, runAll ([.rxByte 0x7E#8, .rxAck] ++ is) s =
      runAll is { afterStart s with flen := f, resp := r } := by
  have hidle : afterStart s = { afterStart s with kind := .none } := by
    rw [← hkind]
    rfl
  have hrestart := restartByteFailsFrame s hkind hpos
  rw [if_pos hresync] at hrestart
  rw [hidle]
  exact ⟨_, _, (runAll_cons hrestart _).trans (runAll_cons rfl _)⟩

/-- Rule R161: a start marker at POS = 0. -/
theorem runAll_start {s : State} (hkind : s.kind = .none) (is : List Instr) :
    ∃ r, runAll ([.rxByte 0x7E#8] ++ is) { s with pos := 0#16, err := .none } =
      runAll is { afterStart s with resp := r } :=
  ⟨_, runAll_cons (idleByteStartsFrameOrIsNoise _ { s with pos := 0#16, err := .none } hkind rfl) _⟩

/-- Settles O60: both runs go on from `afterStart`, but for FLEN, which no byte reads and the next
terminal event writes. -/
theorem restartLeavesNoResidue : Obligations.RestartLeavesNoResidue := by
  intro s bs hkind hpos hresync
  obtain ⟨f, r, hrestart⟩ := runAll_restart_release hkind hpos hresync (bs.map .rxByte)
  obtain ⟨r', hstart⟩ := runAll_start hkind (bs.map .rxByte)
  obtain ⟨rt, ht⟩ := runAll_rxByte bs { afterStart s with flen := f, resp := r }
  obtain ⟨ru, hu⟩ := runAll_rxByte bs { afterStart s with resp := r' }
  rw [feed_with_resp bs { afterStart s with flen := f }] at ht
  rw [feed_with_resp bs (afterStart s)] at hu
  have hsame : SameButFlen (feed bs (afterStart s)) (feed bs { afterStart s with flen := f }) :=
    feed_sameButFlen bs (sameButFlen_of_idle hkind f rfl)
  refine ⟨_, _, hrestart.trans ht, hstart.trans hu, ?idle, ?held, ?fresh⟩
  case idle =>
    intro hnone
    obtain ⟨-, g, heq⟩ | ⟨hheld, heq⟩ := hsame
    · rw [heq]
    · exact absurd (heq ▸ hnone) hheld
  case held =>
    intro hheld
    obtain ⟨hnone, g, heq⟩ | ⟨-, heq⟩ := hsame
    · exact absurd (by rw [heq]; exact hnone) hheld
    · rw [heq]
  case fresh =>
    rintro rfl
    exact ⟨rfl, rfl, rfl⟩

end Sys2Proof.Machine
end

section
/-! PROOFS. The family `43_encoder`, the shape of an encoded frame (rule R229). -/

namespace Sys2Proof.Machine

/-- Rule R221: the length field's first byte as a number. -/
theorem msb_lengthField (n : Nat) : msb (lengthField n) = BitVec.ofNat 8 ((n + 1) / 256) := by
  apply BitVec.eq_of_toNat_eq
  simp only [msb, lengthField, BitVec.extractLsb'_toNat, Nat.shiftRight_eq_div_pow,
    BitVec.toNat_ofNat]
  omega

/-- Rule R221: the length field's second byte as a number. -/
theorem lsb_lengthField (n : Nat) : lsb (lengthField n) = BitVec.ofNat 8 ((n + 1) % 256) := by
  apply BitVec.eq_of_toNat_eq
  simp only [lsb, lengthField, BitVec.extractLsb'_toNat, Nat.shiftRight_eq_div_pow,
    BitVec.toNat_ofNat]
  omega

/-- Rule R137: a special byte takes two wire bytes, any other one. -/
theorem stuffAll_length (bs : List Byte) :
    (stuffAll bs).length = bs.length + bs.countP isSpecial := by
  induction bs with
  | nil => rfl
  | cons b bs ih =>
    rw [stuffAll, List.length_append, ih, List.length_cons, List.countP_cons]
    cases hb : isSpecial b with
    | true => simp [stuff_of_isSpecial hb]; omega
    | false => simp [stuff_of_not_isSpecial hb]; omega

/-- Rules R137 and R139 (b): the four second bytes of an escape pair. -/
theorem xor_mem_of_isSpecial {b : Byte} (h : isSpecial b = true) :
    b ^^^ 0x20#8 ∈ [0x5E#8, 0x5D#8, 0x31#8, 0x33#8] := by
  rcases (isSpecial_iff b).mp h with rfl | rfl | rfl | rfl <;> decide

/-- Rule R229 (c): in stuffed bytes an escape marker is the first byte of an escape pair. -/
theorem stuffAll_getElem?_succ_of_esc (bs : List Byte) :
    ∀ {i : Nat}, (stuffAll bs)[i]? = some escByte →
      ∃ y ∈ [0x5E#8, 0x5D#8, 0x31#8, 0x33#8], (stuffAll bs)[i + 1]? = some y := by
  induction bs with
  | nil => intro i h; simp [stuffAll] at h
  | cons b bs ih =>
    intro i h
    cases hb : isSpecial b with
    | true =>
      rw [stuffAll, stuff_of_isSpecial hb] at h ⊢
      match i with
      | 0 => exact ⟨_, xor_mem_of_isSpecial hb, rfl⟩
      | 1 =>
        have hsecond : b ^^^ 0x20#8 = escByte := Option.some.inj h
        have hplain := isSpecial_xor_eq_false hb
        rw [hsecond] at hplain
        exact absurd hplain (by decide)
      | i + 2 => exact ih h
    | false =>
      rw [stuffAll, stuff_of_not_isSpecial hb] at h ⊢
      match i with
      | 0 =>
        have hfirst : b = escByte := Option.some.inj h
        rw [hfirst] at hb
        exact absurd hb (by decide)
      | i + 1 => exact ih h

/-- Rule R229 (b): a frame holds no raw special byte but its start marker and escape markers. -/
theorem special_not_mem_frameWire {x : Byte} (hx : isSpecial x = true) (hstart : x ≠ startByte)
    (hesc : x ≠ escByte) (tag : Byte) (p : List Byte) : x ∉ frameWire tag p := by
  rw [frameWire, List.mem_cons, not_or]
  exact ⟨hstart, not_mem_stuffAll (special_not_mem_stuff hx hesc) _⟩

/-- Rule R229 (d): the start marker, the length, the tag and the checksum, and what stuffing adds. -/
theorem frameWire_length (tag : Byte) (p : List Byte) :
    (frameWire tag p).length = p.length + 5 + (frameBody tag p).countP isSpecial := by
  rw [frameWire, List.length_cons, stuffAll_length]
  simp [frameBody]
  omega

/-- Settles O32: past the start marker the frame is stuffed, and `stuff` gives out escape pairs and
bytes that are not special. -/
theorem encodeFrameShape : Obligations.EncodeFrameShape := by
  intro tag p _
  refine ⟨frameWire tag p, rfl, frameWire_getElem?_eq_start_iff tag p, ?xon, ?xoff, ?pair, ?length⟩
  case xon => exact special_not_mem_frameWire (x := xonByte) rfl (by decide) (by decide) tag p
  case xoff => exact special_not_mem_frameWire (x := xoffByte) rfl (by decide) (by decide) tag p
  case pair =>
    intro i h
    cases i with
    | zero => exact absurd (Option.some.inj h) (by decide : startByte ≠ escByte)
    | succ i => exact stuffAll_getElem?_succ_of_esc _ h
  case length =>
    rw [frameWire_length, frameBody, msb_lengthField, lsb_lengthField]
    rfl

end Sys2Proof.Machine
end

section
/-! PROOFS. The family `43_encoder`, the decoder on an encoded frame: it gives back the tag and the
payload (rule R227), however the frame's bytes reach it. -/

namespace Sys2Proof.Machine

/-- Rule R172: a byte given while a result is held is lost, so a state with no result after `a ++ b`
had none after `a`. -/
theorem kind_feed_of_append {a b : List Byte} {s : State} (h : (feed (a ++ b) s).kind = .none) :
    (feed a s).kind = .none := by
  by_contra hheld
  rw [feed_append, feed_held hheld] at h
  exact hheld h

/-- No result is held before the last of `bs`. -/
def OpenUntilLast (bs : List Byte) (s : State) : Prop :=
  ∀ pre rest, bs = pre ++ rest → rest ≠ [] → (feed pre s).kind = .none

theorem openUntilLast_of_dropLast {bs : List Byte} {s : State}
    (h : (feed bs.dropLast s).kind = .none) : OpenUntilLast bs s := by
  rintro pre rest rfl hrest
  rw [List.dropLast_append_of_ne_nil hrest] at h
  exact kind_feed_of_append h

theorem OpenUntilLast.kind {bs : List Byte} {s : State} (h : OpenUntilLast bs s) (hbs : bs ≠ []) :
    s.kind = .none := h [] bs rfl hbs

theorem OpenUntilLast.left {a b : List Byte} {s : State} (h : OpenUntilLast (a ++ b) s) :
    OpenUntilLast a s := by
  rintro pre rest rfl hrest
  exact h pre (rest ++ b) (List.append_assoc ..) (by simp [hrest])

theorem OpenUntilLast.right {a b : List Byte} {s : State} (h : OpenUntilLast (a ++ b) s) :
    OpenUntilLast b (feed a s) := by
  rintro pre rest rfl hrest
  rw [← feed_append]
  exact h (a ++ pre) rest (List.append_assoc ..).symm hrest

theorem OpenUntilLast.with_resp {bs : List Byte} {s : State} (h : OpenUntilLast bs s)
    (r : Option Word) : OpenUntilLast bs { s with resp := r } := by
  intro pre rest hsplit hrest
  rw [feed_with_resp]
  exact h pre rest hsplit hrest

/-- RX_POLL of bytes that end no frame before their last takes them all off RXQ (rule R181). -/
theorem exec_rxPoll_of_openUntilLast {c : List Byte} {s : State} (hrxq : s.rxq = []) (hc : c ≠ [])
    (hopen : OpenUntilLast c s) :
    ∃ r, exec .rxPoll { s with rxq := s.rxq ++ c } = .next { feed c s with resp := some r } := by
  obtain ⟨used, left, hsplit, hpoll, hstop, -⟩ := pollBytes_eq_feed c s
  have hleft : left = [] := by
    by_contra hne
    exact hstop.elim hne fun hheld => hheld (hopen used left hsplit hne)
  obtain rfl : c = used := by rw [hsplit, hleft, List.append_nil]
  have hall : pollBody { s with rxq := c } = feed c s := by
    rw [pollBody, hpoll, hleft, ← hrxq, ← feed_rxq c s]
  rw [hrxq, List.nil_append, exec, execRxPoll, release_of_none (by exact hopen.kind hc), hall]
  exact ⟨_, rfl⟩

/-- Rule R193: RX_POLL over the pieces of a delivery is `feed` of its bytes, but for the response. -/
theorem pollChunks_eq_feed (chunks : List (List Byte)) :
    ∀ {s : State}, s.rxq = [] → (∀ c ∈ chunks, c ≠ []) → OpenUntilLast chunks.flatten s →
      ∃ r, pollChunks chunks s = .next { feed chunks.flatten s with resp := r } := by
  induction chunks with
  | nil => exact fun {s} _ _ _ => ⟨s.resp, rfl⟩
  | cons c cs ih =>
    intro s hrxq hne hopen
    rw [List.forall_mem_cons] at hne
    obtain ⟨hc, hcs⟩ := hne
    rw [List.flatten_cons] at hopen ⊢
    obtain ⟨r, hpoll⟩ := exec_rxPoll_of_openUntilLast hrxq hc hopen.left
    obtain ⟨r', hrest⟩ := ih (s := { feed c s with resp := some r }) ((feed_rxq c s).trans hrxq) hcs
      (hopen.right.with_resp _)
    refine ⟨r', ?_⟩
    rw [pollChunks, hpoll]
    exact hrest.trans (by rw [feed_with_resp, feed_append])

/-- The bytes of a stuffed byte before its last leave the decoder open: none, or the escape marker. -/
theorem kind_feed_dropLast_stuff (d : Byte) {s : State} (hkind : s.kind = .none)
    (hpos : s.pos ≠ 0#16) (hesc : s.esc = false) : (feed (stuff d).dropLast s).kind = .none := by
  cases hd : isSpecial d with
  | true =>
    rw [stuff_of_isSpecial hd, List.dropLast_cons_cons, List.dropLast_singleton, feed_cons, feed_nil,
      offerByte_idle hkind, rxStep_esc hpos hesc]
    exact hkind
  | false =>
    rw [stuff_of_not_isSpecial hd]
    exact hkind

theorem stuff_ne_nil (b : Byte) : stuff b ≠ [] := by
  rw [stuff]
  split <;> exact List.cons_ne_nil _ _

/-- A COMPLETE frame of type `tag` with payload `p` is held (rules R227 and R192). -/
def HoldsFrame (tag : Byte) (p : List Byte) (t : State) : Prop :=
  t.kind = .complete ∧ t.err = .none ∧ t.tag = tag ∧ (declen t).toNat = p.length + 1 ∧
    t.flen.toNat = p.length ∧ HoldsPayload t.buf p ∧ t.rxck = ckCompute (tag :: p) ∧ t.pos = 0#16

/-- Rule R169's other branch: the checksum of the payload ends the frame in COMPLETE. -/
theorem Receiving.feed_stuff_ckCompute {tag : Byte} {n : Nat} {p : List Byte} {s : State}
    (h : Receiving tag n p s) (hn : p.length = n) :
    HoldsFrame tag p (feed (stuff (ckCompute (tag :: p))) s) := by
  have hrck : ckAdd s.rck (ckCompute (tag :: p)) = 0xFF#8 := by
    apply BitVec.eq_of_toNat_eq
    rw [ckAdd_toNat, h.rck, h.tag, Nat.mod_add_mod]
    exact (ckVerify_iff _ _).mp ((ckVerifyIffComputed _ _).mpr rfl)
  have hcap : frameCap s < 65532 := s.cfg.frameCap.isLt
  have hroom := h.room
  have hflen : (BitVec.ofNat 16 (written s.pos.toNat)).toNat = p.length := by
    rw [h.pos, written_of_four_le (Nat.le_add_left ..), Nat.add_sub_cancel, BitVec.toNat_ofNat]
    omega
  rw [h.feed_stuff_eq hn.le, if_pos hn, stepChecksum, if_pos (by exact hrck)]
  exact ⟨rfl, rfl, h.tag, h.len.trans (by rw [hn]), hflen, h.buf, rfl, rfl⟩

section
variable (tag : Byte) {p : List Byte} {s : State} (hkind : s.kind = .none) (hpos : s.pos = 0#16)
  (hp : p.length ≤ frameCap s)
include hkind hpos hp

/-- The decoder at the checksum of a frame received from POS = 0. -/
theorem receiving_feed_payload :
    Receiving tag p.length p (feed (stuffAll p) (feed (startByte ::
      stuffAll [msb (lengthField p.length), lsb (lengthField p.length), tag]) s)) :=
  (receiving_feed_header tag hkind hpos hp).feed_stuffAll p (by simp)

/-- Rule R227 for the bytes of a whole frame, from POS = 0. -/
theorem feed_frameWire_holdsFrame : HoldsFrame tag p (feed (frameWire tag p) s) := by
  rw [frameWire_eq_frameWireWith, feed_frameWireWith]
  exact (receiving_feed_payload tag hkind hpos hp).feed_stuff_ckCompute rfl

/-- No result is held before a frame's last byte. -/
theorem frameWire_openUntilLast : OpenUntilLast (frameWire tag p) s := by
  have hbody := receiving_feed_payload tag hkind hpos hp
  have hlast := kind_feed_dropLast_stuff (ckCompute (tag :: p)) hbody.kind
    (hbody.pos_ne (by decide)) hbody.esc
  have hsplit : frameWire tag p = (startByte ::
      stuffAll [msb (lengthField p.length), lsb (lengthField p.length), tag]) ++ stuffAll p ++
        stuff (ckCompute (tag :: p)) := by
    simp [frameWire, frameBody, stuffAll, stuffAll_append]
  apply openUntilLast_of_dropLast
  rwa [hsplit, List.dropLast_append_of_ne_nil (stuff_ne_nil _), feed_append, feed_append]

end

/-- Rule R161: from POS = 0 the start marker leads to `afterStart`, but for ERR. -/
theorem feed_afterStart (bs : List Byte) {s : State} (hkind : s.kind = .none) :
    feed bs (afterStart s) = feed (startByte :: bs) { s with pos := 0#16, err := .none } := by
  rw [feed_cons, offerByte_idle (by exact hkind), rxStep_of_pos_zero rfl, stepIdle, if_pos rfl]
  rfl

/-- Rule R181's first step: RX_POLL releases a held result. -/
theorem exec_rxPoll_release (s : State) : exec .rxPoll (release s) = exec .rxPoll s := by
  simp only [exec, execRxPoll, release_of_none (release_kind s)]

/-- Rule R162 under RESYNC: an RX_POLL that finds a start marker inside a frame ends in
UnexpectedRestart, and its release leaves the decoder just past that marker, the rest in RXQ. -/
theorem exec_rxPoll_restart (bs : List Byte) {s : State} (hkind : s.kind = .none)
    (hpos : s.pos ≠ 0#16) (hresync : s.cfg.restart = .resync) :
    ∃ t v, exec .rxPoll { s with rxq := startByte :: bs } = .next t ∧
      t.kind = .failed ∧ t.err = .unexpectedRestart ∧
      release t = { afterStart v with rxq := bs } ∧ v.kind = .none ∧ v.cfg = s.cfg := by
  have hpoll : pollBody { s with rxq := startByte :: bs } = { stepRestart s with rxq := bs } := by
    rw [pollBody, pollBytes_cons (by exact hkind), rxStep_start (by exact hpos), stepRestart_eq,
      stepRestart_eq]
    exact pollBytes_held (by simp) bs
  rw [exec, execRxPoll, release_of_none (by exact hkind), hpoll, stepRestart_eq, if_pos hresync]
  exact ⟨_, { s with kind := .none, flen := BitVec.ofNat 16 (written s.pos.toNat), resp := some _ },
    rfl, rfl, rfl, rfl, rfl, rfl⟩

/-- Settles O56: by RX_BYTE and by RX_POLL in pieces the frame's bytes act as `feed` of them, and a
restart leaves the decoder as a start marker at POS = 0 does. -/
theorem roundTrip : Obligations.RoundTrip := by
  intro tag p s hkind hrxq hp Decoded
  refine ⟨fun hpos => ⟨?bytes, ?polls⟩, ?restart⟩
  case bytes =>
    obtain ⟨r, hrun⟩ := runAll_rxByte (frameWire tag p) s
    exact ⟨_, hrun, feed_frameWire_holdsFrame tag hkind hpos hp⟩
  case polls =>
    intro chunks hne hflat
    have hopen := frameWire_openUntilLast tag hkind hpos hp
    rw [← hflat] at hopen
    obtain ⟨r, hrun⟩ := pollChunks_eq_feed chunks hrxq hne hopen
    rw [hflat] at hrun
    exact ⟨_, hrun, feed_frameWire_holdsFrame tag hkind hpos hp⟩
  case restart =>
    intro hpos hresync
    obtain ⟨t, v, hfirst, hfailed, herr, hrelease, hvkind, hvcfg⟩ :=
      exec_rxPoll_restart (stuffAll (frameBody tag p)) hkind hpos hresync
    obtain ⟨left, hsecond⟩ := exec_rxPoll_eq_feed (s := afterStart v) hvkind _
    rw [← hrelease, exec_rxPoll_release, feed_afterStart _ hvkind] at hsecond
    have hroom : p.length ≤ frameCap v := by rwa [frameCap, hvcfg]
    exact ⟨t, _, hfirst, hfailed, herr, hsecond,
      feed_frameWire_holdsFrame tag (s := { v with pos := 0#16, err := .none }) hvkind rfl hroom⟩

end Sys2Proof.Machine
end

section
/-! PROOFS. The family `44_buffer_dispatch`: what VIEW_FOR's response depends on (rules R257 and
R258). -/

namespace Sys2Proof

/-- Rule R5 as a proposition: no tag and no view id stands twice. -/
theorem Config.wf_iff (c : Config) : c.wf = true ↔
    (c.viewTable.map ViewEntry.tag).Nodup ∧ (c.viewTable.map ViewEntry.viewId).Nodup := by
  simp [Config.wf]

end Sys2Proof

namespace Sys2Proof.Machine

/-- VIEW_FOR always answers, and its response is `viewResponse` of the state before. -/
theorem resp_of_exec_viewFor {s t : State} (h : exec .viewFor s = .next t) :
    t.resp = some (viewResponse s) := by
  obtain rfl : respond (viewResponse s) s = t := Host.Outcome.next.inj h
  rfl

/-- Rule R257: the response is a function of KIND = COMPLETE, of FLEN and of the entry found for
TAG. -/
theorem viewResponse_congr {s s' : State} (hkind : s.kind = .complete ↔ s'.kind = .complete)
    (hflen : s.flen = s'.flen)
    (hfound : viewLookup s.cfg.viewTable s.tag = viewLookup s'.cfg.viewTable s'.tag) :
    viewResponse s = viewResponse s' := by
  simp only [viewResponse, viewWord, ne_eq, hkind, hflen, hfound]

theorem viewResponse_of_viewLookup {s : State} {e : ViewEntry} (hkind : s.kind = .complete)
    (hfound : viewLookup s.cfg.viewTable s.tag = some e) : viewResponse s = viewWord s e := by
  simp [viewResponse, hkind, hfound]

/-- An entry for another tag is passed over, wherever it stands in the table. -/
theorem viewLookup_append_cons_of_ne {e : ViewEntry} {tag : Byte} (h : e.tag ≠ tag)
    (before after : List ViewEntry) :
    viewLookup (before ++ e :: after) tag = viewLookup (before ++ after) tag := by
  induction before with
  | nil => exact if_neg h
  | cons x xs ih => simp only [List.cons_append, viewLookup, ih]

theorem viewLookup_eq_some_of_mem {l : List ViewEntry} (hl : (l.map ViewEntry.tag).Nodup)
    {e : ViewEntry} (he : e ∈ l) : viewLookup l e.tag = some e := by
  induction l with
  | nil => cases he
  | cons x xs ih =>
    obtain ⟨hx, hxs⟩ := List.nodup_cons.mp hl
    obtain rfl | hmem := List.mem_cons.mp he
    · exact if_pos rfl
    · have hne : x.tag ≠ e.tag := fun h => hx (h ▸ List.mem_map_of_mem hmem)
      exact (if_neg hne).trans (ih hxs hmem)

/-- Rule R97: bits 23 to 16 of a view word are the view id. -/
theorem packView_viewId_field (vkind : BitVec 2) (short : Bool) (v : Byte) (l : Half) :
    (packView vkind short v l).toNat / 2 ^ 16 % 2 ^ 8 = v.toNat := by
  rw [packView_toNat]
  omega

/-- Rules R5 and R257: the view id field of the response to a complete frame of a known tag is the
view id of the tag's one entry. -/
theorem viewResponse_viewId_field {s : State} {e : ViewEntry} (hwf : s.cfg.wf = true)
    (hkind : s.kind = .complete) (he : e ∈ s.cfg.viewTable) (htag : e.tag = s.tag) :
    (viewResponse s).toNat / 2 ^ 16 % 2 ^ 8 = e.viewId.toNat := by
  obtain ⟨htags, -⟩ := s.cfg.wf_iff.mp hwf
  have hfound := viewLookup_eq_some_of_mem htags he
  rw [htag] at hfound
  rw [viewResponse_of_viewLookup hkind hfound]
  exact packView_viewId_field ..

/-- Rule R5: entries of a well-formed table with one view id are one entry. -/
theorem eq_of_viewId_eq {c : Config} (hwf : c.wf = true) {e e' : ViewEntry}
    (he : e ∈ c.viewTable) (he' : e' ∈ c.viewTable) (h : e.viewId = e'.viewId) : e = e' := by
  obtain ⟨-, hids⟩ := c.wf_iff.mp hwf
  exact List.inj_on_of_nodup_map hids he he' h

/-- Settles O37: the response is fixed by KIND = COMPLETE, FLEN and the entry found for TAG, an
entry for another tag is never the one found, and a well-formed table keeps view ids apart. -/
theorem viewForIsTableDriven : Obligations.ViewForIsTableDriven := by
  refine ⟨?agree, ?insert, ?distinct⟩
  case agree =>
    intro s s' t t' hkind htag hflen htable hs hs'
    rw [resp_of_exec_viewFor hs, resp_of_exec_viewFor hs']
    exact congrArg some (viewResponse_congr hkind hflen (by rw [htag, htable]))
  case insert =>
    intro s t t' before after e htable hne hs hs'
    rw [resp_of_exec_viewFor hs, resp_of_exec_viewFor hs']
    refine congrArg some (viewResponse_congr Iff.rfl rfl ?_)
    rw [htable, viewLookup_append_cons_of_ne hne]
  case distinct =>
    intro s s' t t' e e' w w' hwf hcfg hkind hkind' he htag he' htag' hne hs hs' hw hw'
    obtain rfl : viewResponse s = w := Option.some.inj ((resp_of_exec_viewFor hs).symm.trans hw)
    obtain rfl : viewResponse s' = w' := Option.some.inj ((resp_of_exec_viewFor hs').symm.trans hw')
    rw [viewResponse_viewId_field hwf hkind he htag,
      viewResponse_viewId_field (hcfg ▸ hwf) hkind' (hcfg ▸ he') htag']
    intro hid
    have hsame : e = e' := eq_of_viewId_eq hwf he he' (BitVec.eq_of_toNat_eq hid)
    exact hne (by rw [← htag, ← htag', hsame])

end Sys2Proof.Machine
end

section
/-! PROOFS. The family `60_exceptions`, the return from a result: the release, by RX_ACK and at the
start of RX_POLL and RX_WAIT (rules R183 and R313). -/

namespace Sys2Proof.Machine

/-! The RX commands do not read the response of the command before, and each writes its own. -/

theorem release_with_resp (s : State) (r : Option Word) :
    release { s with resp := r } = { release s with resp := r } := by
  by_cases hkind : s.kind = .none <;> simp [release, hkind]

theorem rxStep_with_resp (b : Byte) {s : State} (hkind : s.kind = .none) (r : Option Word) :
    rxStep b { s with resp := r } = { rxStep b s with resp := r } := by
  rw [← offerByte_idle hkind, ← offerByte_idle (by exact hkind)]
  exact feed_with_resp [b] s r

theorem pollBytes_with_resp (q : List Byte) (s : State) (r : Option Word) :
    pollBytes q { s with resp := r } = { pollBytes q s with resp := r } := by
  induction q generalizing s with
  | nil => rfl
  | cons b q ih =>
    by_cases hkind : s.kind = .none
    · rw [pollBytes_cons hkind, pollBytes_cons (by exact hkind), ← ih]
      exact congrArg _ (rxStep_with_resp b (s := { s with rxq := q }) hkind r)
    · rw [pollBytes_held hkind, pollBytes_held (by exact hkind)]

theorem pollBody_with_resp (s : State) (r : Option Word) :
    pollBody { s with resp := r } = { pollBody s with resp := r } :=
  pollBytes_with_resp s.rxq s r

theorem waitIterate_with_resp (w : Wait) (s : State) (r : Option Word) :
    waitIterate w { s with resp := r } = waitIterate w s := by
  simp only [waitIterate, pollBody_with_resp]
  rfl

theorem exec_rxAck_with_resp (s : State) (r : Option Word) :
    exec .rxAck { s with resp := r } = exec .rxAck s := by
  simp only [exec, execRxAck, release_with_resp]
  rfl

theorem exec_rxPoll_with_resp (s : State) (r : Option Word) :
    exec .rxPoll { s with resp := r } = exec .rxPoll s := by
  simp only [exec, execRxPoll, release_with_resp, pollBody_with_resp]
  rfl

theorem exec_rxWait_with_resp (n : Nat) (s : State) (r : Option Word) :
    exec (.rxWait n) { s with resp := r } = exec (.rxWait n) s := by
  simp only [exec, execRxWait, release_with_resp, waitIterate_with_resp]

/-! After a release, a command that releases does what it does without it. -/

theorem release_release (s : State) : release (release s) = release s :=
  release_of_none (release_kind s)

theorem exec_rxAck_release (s : State) : exec .rxAck (release s) = exec .rxAck s := by
  simp only [exec, execRxAck, release_release]

theorem exec_rxWait_release (n : Nat) (s : State) :
    exec (.rxWait n) (release s) = exec (.rxWait n) s := by
  simp only [exec, execRxWait, release_release, release_now]

/-- Settles O27: the state RX_ACK answers is `release s` but for the response, and the commands that
release start from `release` of their state, which a second release leaves as it is. -/
theorem releaseIsReturnFromResult : Obligations.ReleaseIsReturnFromResult := by
  intro s
  refine ⟨release s, rfl, release_of_none, ?held, ?ackAgain, ?poll, ?wait⟩
  case held =>
    intro hheld
    rw [release, if_pos hheld]
  case ackAgain => exact (exec_rxAck_with_resp (release s) _).trans (exec_rxAck_release s)
  case poll => exact ((exec_rxPoll_with_resp (release s) _).trans (exec_rxPoll_release s)).symm
  case wait =>
    exact fun n => ((exec_rxWait_with_resp n (release s) _).trans (exec_rxWait_release n s)).symm

end Sys2Proof.Machine
end

section
/-! PROOFS. The family `60_exceptions`, the entry to a fault: what a command can do to FAULT (rules
R307 and R312). -/

namespace Sys2Proof.Machine

@[simp] theorem giveByte_fault (b : Byte) (s : State) : (giveByte b s).fault = s.fault := by
  rw [giveByte_eq]
  exact (offerByte_sameOutside b s).fault

@[simp] theorem pollBody_fault (s : State) : (pollBody s).fault = s.fault :=
  (pollBytes_sameOutside s.rxq s).fault

@[simp] theorem waitIterate_fault (w : Wait) (s : State) : (waitIterate w s).fault = s.fault := by
  unfold waitIterate
  dsimp only
  split
  · exact pollBody_fault s
  split <;> exact pollBody_fault s

@[simp] theorem beginFrame_fault (tag : Byte) (n : Nat) (s : State) :
    (beginFrame tag n s).fault = s.fault := by
  unfold beginFrame
  dsimp only
  split <;> rfl

@[simp] theorem dataByte_fault (b : Byte) (s : State) : (dataByte b s).fault = s.fault := by
  unfold dataByte
  dsimp only
  split <;> rfl

/-- `t` is `s` after the entry to one fault, but for the response and the count of free values. -/
def FaultEntry (s t : State) : Prop :=
  ∃ f : FaultBit, t = { raiseFault f s with resp := t.resp, draws := t.draws }

theorem respondTx_raiseFault_faultEntry (f : FaultBit) (s : State) :
    FaultEntry s (respondTx (raiseFault f s)) := ⟨f, rfl⟩

theorem respondFree_raiseFault_faultEntry (f : FaultBit) (s : State) :
    FaultEntry s (respondFree (raiseFault f s)) := ⟨f, rfl⟩

theorem execRdBuf_fault_cases {a : Nat} {s t : State} (h : execRdBuf a s = .next t) :
    t.fault = s.fault ∨ FaultEntry s t := by
  unfold execRdBuf at h
  split at h
  · cases h
    exact .inr (respondFree_raiseFault_faultEntry .bufRange s)
  split at h <;> cases h
  exact .inl rfl

theorem execTxBegin_fault_cases {tag : Byte} {n : Nat} {s t : State}
    (h : execTxBegin tag n s = .next t) : t.fault = s.fault ∨ FaultEntry s t := by
  unfold execTxBegin at h
  split at h
  · cases h
    exact .inr (respondTx_raiseFault_faultEntry .txBeginBusy s)
  split at h <;> cases h
  · exact .inr (respondTx_raiseFault_faultEntry .txLenRange s)
  · exact .inl (beginFrame_fault tag n s)

theorem execTxData_fault_cases {b : Byte} {s t : State} (h : execTxData b s = .next t) :
    t.fault = s.fault ∨ FaultEntry s t := by
  unfold execTxData at h
  split at h <;> cases h
  · exact .inr (respondTx_raiseFault_faultEntry .txDataIdle s)
  · exact .inl (dataByte_fault b s)

/-- (inversion) all that a command can do to FAULT: RD_BUF, TX_BEGIN and TX_DATA can enter a fault,
and no other command writes it. -/
theorem exec_fault_cases {i : Instr} {s t : State} (h : exec i s = .next t) :
    t.fault = s.fault ∨ FaultEntry s t := by
  cases i
  case rdBuf a => exact execRdBuf_fault_cases h
  case txBegin tag n => exact execTxBegin_fault_cases h
  case txData b => exact execTxData_fault_cases h
  all_goals
    cases h
    exact .inl (by simp)

/-- Settles O42: a command that changes FAULT enters a fault. -/
theorem faultEntrySetsOneBit : Obligations.FaultEntrySetsOneBit := by
  intro i s t h hchanged
  obtain ⟨f, ht⟩ := (exec_fault_cases h).resolve_left hchanged
  exact ⟨f, ht⟩

end Sys2Proof.Machine
end

section
/-! PROOFS. The family `70_reset_and_hazards`, who leaves the decoder alone: the commands that are
no RX command and not RESET (rule R348). -/

namespace Sys2Proof.Machine

/-- NOP, the register reads, VIEW_FOR and RD_TXSTAT: the commands whose one effect is a response. -/
def respondingCommands : List Instr :=
  [.nop, .rdStatus, .rdTag, .rdDeclen, .rdFlen, .rdCksum, .viewFor, .rdTxstat]

theorem exec_eq_respond {i : Instr} (hi : i ∈ respondingCommands) (s : State) :
    ∃ w, exec i s = .next (respond w s) := by
  simp only [respondingCommands, List.mem_cons, List.not_mem_nil, or_false] at hi
  rcases hi with rfl | rfl | rfl | rfl | rfl | rfl | rfl | rfl <;> exact ⟨_, rfl⟩

/-- The decoder's registers, the Frame Buffer and the bytes waiting for the decoder are the same in
both states. -/
def LeavesDecoder (s t : State) : Prop := SameDecoder s t ∧ t.rxq = s.rxq

theorem SameDecoder.trans {s t u : State} (h : SameDecoder s t) (g : SameDecoder t u) :
    SameDecoder s u :=
  ⟨g.cfg.trans h.cfg, g.pos.trans h.pos, g.esc.trans h.esc, g.rck.trans h.rck,
    g.lenMsb.trans h.lenMsb, g.lenLsb.trans h.lenLsb, g.tag.trans h.tag, g.rxck.trans h.rxck,
    g.flen.trans h.flen, g.kind.trans h.kind, g.err.trans h.err, g.buf.trans h.buf⟩

theorem LeavesDecoder.trans {s t u : State} (h : LeavesDecoder s t) (g : LeavesDecoder t u) :
    LeavesDecoder s u :=
  ⟨h.1.trans g.1, g.2.trans h.2⟩

theorem respond_leavesDecoder (w : Word) (s : State) : LeavesDecoder s (respond w s) :=
  ⟨by constructor <;> rfl, rfl⟩

theorem respondFree_leavesDecoder (s : State) : LeavesDecoder s (respondFree s) :=
  ⟨by constructor <;> rfl, rfl⟩

theorem raiseFault_leavesDecoder (f : FaultBit) (s : State) : LeavesDecoder s (raiseFault f s) :=
  ⟨by constructor <;> rfl, rfl⟩

theorem LeavesDecoder.respondTx {s t : State} (h : LeavesDecoder s t) :
    LeavesDecoder s (respondTx t) :=
  h.trans (respond_leavesDecoder _ t)

@[simp] theorem beginFrame_rxq (tag : Byte) (n : Nat) (s : State) :
    (beginFrame tag n s).rxq = s.rxq := by
  unfold beginFrame
  dsimp only
  split <;> rfl

@[simp] theorem dataByte_rxq (b : Byte) (s : State) : (dataByte b s).rxq = s.rxq := by
  unfold dataByte
  dsimp only
  split <;> rfl

theorem execRdBuf_leavesDecoder {a : Nat} {s t : State} (h : execRdBuf a s = .next t) :
    LeavesDecoder s t := by
  unfold execRdBuf at h
  split at h
  · cases h
    exact (raiseFault_leavesDecoder .bufRange s).trans (respondFree_leavesDecoder _)
  split at h <;> cases h
  exact respond_leavesDecoder _ s

theorem execTxBegin_leavesDecoder {tag : Byte} {n : Nat} {s t : State}
    (h : execTxBegin tag n s = .next t) : LeavesDecoder s t := by
  unfold execTxBegin at h
  split at h
  · cases h
    exact (raiseFault_leavesDecoder .txBeginBusy s).respondTx
  split at h <;> cases h
  · exact (raiseFault_leavesDecoder .txLenRange s).respondTx
  · exact .respondTx ⟨beginFrame_sameDecoder tag n s, beginFrame_rxq tag n s⟩

theorem execTxData_leavesDecoder {b : Byte} {s t : State} (h : execTxData b s = .next t) :
    LeavesDecoder s t := by
  unfold execTxData at h
  split at h <;> cases h
  · exact (raiseFault_leavesDecoder .txDataIdle s).respondTx
  · exact .respondTx ⟨dataByte_sameDecoder b s, dataByte_rxq b s⟩

/-- Rule R348 for a command that answers and is neither an RX command nor RESET. -/
theorem exec_leavesDecoder {i : Instr} {s t : State}
    (hi : i ∈ respondingCommands ∨
      (∃ a, i = .rdBuf a) ∨ (∃ tag n, i = .txBegin tag n) ∨ ∃ b, i = .txData b)
    (h : exec i s = .next t) : LeavesDecoder s t := by
  rcases hi with hmem | ⟨a, rfl⟩ | ⟨tag, n, rfl⟩ | ⟨b, rfl⟩
  · obtain ⟨w, hw⟩ := exec_eq_respond hmem s
    cases hw.symm.trans h
    exact respond_leavesDecoder w s
  · exact execRdBuf_leavesDecoder h
  · exact execTxBegin_leavesDecoder h
  · exact execTxData_leavesDecoder h

/-- Settles O43: RX_ACK only releases, and the release writes KIND and ERR alone; each of the other
commands leaves the decoder's registers, the Frame Buffer and RXQ. -/
theorem decoderStateOnlyByRxCommands : Obligations.DecoderStateOnlyByRxCommands := by
  intro i s t h
  refine ⟨?ack, fun hi => ?others⟩
  case ack =>
    rintro rfl
    cases h
    exact ⟨release_esc s, release_pos s, release_rck s⟩
  case others =>
    obtain ⟨hdec, hrxq⟩ := exec_leavesDecoder hi h
    exact ⟨hdec.esc, hdec.pos, hdec.rck, hdec.lenMsb, hdec.lenLsb, hdec.tag, hdec.rxck, hdec.flen,
      hdec.kind, hdec.err, hdec.buf, hrxq⟩

end Sys2Proof.Machine
end

section
/-! PROOFS. The family `70_reset_and_hazards`, the parameters and the clock: who writes them and who
reads the clock (rules R345 and R40). -/

namespace Sys2Proof.Machine

/-! The parameters: no shared operation writes them. -/

@[simp] theorem rxStep_cfg (b : Byte) (s : State) : (rxStep b s).cfg = s.cfg :=
  (rxStep_sameOutside b s).cfg

theorem cfg_keptByOps (c : Config) : KeptByOps (fun s => s.cfg = c) :=
  keptByOps_of_decoder (fun hsame hs => hsame.cfg.trans hs)
    (fun b s _ hs => (rxStep_cfg b s).trans hs)
    (fun s hs => (release_cfg s).trans hs)
    (fun s _ hs => (resetSession_cfg s).trans hs)
    (fun s hs => (resetBlock_cfg s).trans hs)

theorem step_cfg {s t : State} (h : step s = .next t) : t.cfg = s.cfg :=
  (cfg_keptByOps s.cfg).step rfl h

/-! Each operation does the same at any other reading of NOW. -/

theorem feed_with_now (bs : List Byte) (s : State) (n : Nat) :
    feed bs { s with now := n } = { feed bs s with now := n } := by
  refine (feed_graft bs (s := s) (o := { s with now := n }) rfl).trans ?_
  conv_rhs => rw [graft_feed_eq bs s]
  rfl

theorem offerByte_with_now (b : Byte) (s : State) (n : Nat) :
    offerByte b { s with now := n } = { offerByte b s with now := n } :=
  feed_with_now [b] s n

theorem giveByte_with_now (b : Byte) (s : State) (n : Nat) :
    giveByte b { s with now := n } = { giveByte b s with now := n } := by
  simp only [giveByte_eq, offerByte_with_now]
  rfl

theorem release_with_now (s : State) (n : Nat) :
    release { s with now := n } = { release s with now := n } := by
  unfold release
  split <;> rfl

/-- An update that the byte step and the loop's own update of RXQ commute with, the loop does too. -/
theorem pollBytes_comm {f : State → State} (hkind : ∀ s, (f s).kind = s.kind)
    (hrxq : ∀ s q, ({ f s with rxq := q } : State) = f { s with rxq := q })
    (hstep : ∀ b s, s.kind = .none → rxStep b (f s) = f (rxStep b s)) (q : List Byte) (s : State) :
    pollBytes q (f s) = f (pollBytes q s) := by
  induction q generalizing s with
  | nil => rfl
  | cons b q ih =>
    by_cases h : s.kind = .none
    · rw [pollBytes_cons h, pollBytes_cons ((hkind s).trans h), hrxq,
        hstep b { s with rxq := q } h, ih]
    · rw [pollBytes_held h, pollBytes_held (by rwa [hkind])]

theorem pollBody_with_now (s : State) (n : Nat) :
    pollBody { s with now := n } = { pollBody s with now := n } := by
  refine pollBytes_comm (f := fun s => { s with now := n }) (fun _ => rfl) (fun _ _ => rfl) ?_
    s.rxq s
  intro b s hkind
  rw [← offerByte_idle hkind, ← offerByte_idle (by exact hkind)]
  exact offerByte_with_now b s n

theorem beginFrame_with_now (tag : Byte) (k : Nat) (s : State) (n : Nat) :
    beginFrame tag k { s with now := n } = { beginFrame tag k s with now := n } := by
  unfold beginFrame
  dsimp only
  split <;> rfl

theorem dataByte_with_now (b : Byte) (s : State) (n : Nat) :
    dataByte b { s with now := n } = { dataByte b s with now := n } := by
  unfold dataByte
  dsimp only
  by_cases h : s.txRem - 1#16 = 0#16
  · rw [if_pos h, if_pos h]; rfl
  · rw [if_neg h, if_neg h]; rfl

/-! A command that answers at one reading of NOW answers the same at any other. -/

theorem execRxByte_with_now {b : Byte} {s t : State} (h : execRxByte b s = .next t) (n : Nat) :
    execRxByte b { s with now := n } = .next { t with now := n } := by
  cases h
  exact congrArg _ (giveByte_with_now b s n)

theorem execRdBuf_with_now {a : Nat} {s t : State} (h : execRdBuf a s = .next t) (n : Nat) :
    execRdBuf a { s with now := n } = .next { t with now := n } := by
  unfold execRdBuf at h ⊢
  split at h
  · next hout =>
    cases h
    exact if_pos hout
  · next hin =>
    rw [if_neg (by exact hin)]
    split at h <;> cases h
    next hread => rw [hread]; rfl

theorem execTxBegin_with_now {tag : Byte} {k : Nat} {s t : State}
    (h : execTxBegin tag k s = .next t) (n : Nat) :
    execTxBegin tag k { s with now := n } = .next { t with now := n } := by
  unfold execTxBegin at h ⊢
  rw [beginFrame_with_now]
  split at h
  · next hbusy =>
    cases h
    exact if_pos hbusy
  · next hidle =>
    rw [if_neg (by exact hidle)]
    split at h <;> cases h
    · next hlong => exact if_pos hlong
    · next hfits => exact if_neg hfits

theorem execTxData_with_now {b : Byte} {s t : State} (h : execTxData b s = .next t) (n : Nat) :
    execTxData b { s with now := n } = .next { t with now := n } := by
  unfold execTxData at h ⊢
  rw [dataByte_with_now]
  split at h <;> cases h
  · next hidle => exact if_pos hidle
  · next hbusy => exact if_neg hbusy

/-- Rule R40: RX_WAIT is the one command that reads NOW. -/
theorem exec_with_now {i : Instr} {s t : State} (hi : ∀ m, i ≠ .rxWait m)
    (h : exec i s = .next t) (n : Nat) : exec i { s with now := n } = .next { t with now := n } := by
  cases i
  case rxWait m => exact absurd rfl (hi m)
  case rxByte b => exact execRxByte_with_now h n
  case wireStart => exact execRxByte_with_now h n
  case wireEsc => exact execRxByte_with_now h n
  case wireXon => exact execRxByte_with_now h n
  case wireXoff => exact execRxByte_with_now h n
  case wireData b => exact execRxByte_with_now h n
  case rxPoll =>
    cases h
    simp only [exec, execRxPoll, release_with_now, pollBody_with_now]
    rfl
  case rxAck =>
    cases h
    simp only [exec, execRxAck, release_with_now]
    rfl
  case rdBuf a => exact execRdBuf_with_now h n
  case txBegin tag k => exact execTxBegin_with_now h n
  case txData b => exact execTxData_with_now h n
  all_goals
    cases h
    rfl

/-! The clock: only the environment's step writes it. -/

@[simp] theorem waitIterate_now (w : Wait) (s : State) : (waitIterate w s).now = s.now := by
  unfold waitIterate
  dsimp only
  split
  · exact (pollBytes_sameOutside s.rxq s).now
  split <;> exact (pollBytes_sameOutside s.rxq s).now

theorem exec_now {i : Instr} {s t : State} (h : exec i s = .next t) : t.now = s.now := by
  by_cases hi : ∃ m, i = .rxWait m
  · obtain ⟨m, rfl⟩ := hi
    cases h
    exact (waitIterate_now _ _).trans (release_now s)
  · have hsame := exec_with_now (fun m hm => hi ⟨m, hm⟩) h s.now
    injection h.symm.trans hsame with ht
    exact (congrArg State.now ht :)

theorem step_of_lifted {s : State} {w : Wait} (hwait : s.wait = some w) (hlifted : w.lifted = true) :
    step s = .next (waitIterate w s) := by
  simp [step, turn, hwait, hlifted]

/-- (inversion) what a step can do to NOW: the environment's move advances it, or it stays. -/
theorem step_now_cases {s t : State} (h : step s = .next t) :
    t.now = s.now ∨ ∃ e rest, s.agenda = .env e :: rest ∧ t.now = s.now + e.advance := by
  rcases step_cases h with rfl | ⟨e, rest, hagenda, rfl⟩ | ⟨w, _, _, rfl⟩ |
    ⟨_, i, rest, _, _, _, hexec⟩ | ⟨_, _, rest, _, _, _, rfl⟩
  · exact .inl rfl
  · exact .inr ⟨e, rest, hagenda, rfl⟩
  · exact .inl (waitIterate_now w s)
  · exact .inl (exec_now (s := { s with agenda := rest }) hexec)
  · exact .inl rfl

/-- Settles O45: the parameters are kept by every shared operation, and of the steps only the
environment's writes NOW; RX_WAIT aside, a command runs the same at every reading of NOW. -/
theorem parametersNeverChange : Obligations.ParametersNeverChange := by
  refine ⟨fun s t h => ⟨step_cfg h, ?monotone, ?owner⟩, fun i s t n hi h => exec_with_now hi h n⟩
  case monotone => rcases step_now_cases h with hnow | ⟨e, rest, _, hnow⟩ <;> omega
  case owner =>
    rintro (⟨w, hwait, hlifted⟩ | hhead)
    · cases (step_of_lifted hwait hlifted).symm.trans h
      exact waitIterate_now w s
    · exact (step_now_cases h).resolve_right fun ⟨e, rest, hagenda, _⟩ => hhead e rest hagenda

end Sys2Proof.Machine
end

section
/-! PROOFS. The family `other`, the encoding: decode and encode invert each other (rules R90 to
R93, R99 and R102). -/

namespace Sys2Proof

/-! The fields of the words of rule R92. -/

@[simp] theorem byteField_wordFB (op : BitVec 4) (b : Byte) : byteField (wordFB op b) = b := by
  have hb := b.isLt
  apply BitVec.eq_of_toNat_eq
  rw [byteField_toNat, wordFB_toNat]
  omega

theorem timeoutField_wordFT (op : BitVec 4) {t : Nat} (ht : t < 2 ^ 24) :
    timeoutField (wordFT op t) = t := by
  rw [timeoutField_eq, wordFT_toNat]
  omega

theorem halfField_wordFI (op : BitVec 4) {i : Nat} (hi : i < 2 ^ 16) :
    halfField (wordFI op i) = i := by
  rw [halfField_eq, wordFI_toNat]
  omega

@[simp] theorem tagField_wordFX (op : BitVec 4) (tag : Byte) (n : Nat) :
    tagField (wordFX op tag n) = tag := by
  have htag := tag.isLt
  apply BitVec.eq_of_toNat_eq
  rw [tagField_toNat, wordFX_toNat]
  omega

theorem halfField_wordFX (op : BitVec 4) (tag : Byte) {n : Nat} (hn : n < 2 ^ 16) :
    halfField (wordFX op tag n) = n := by
  rw [halfField_eq, wordFX_toNat]
  omega

/-! The reserved bits of rule R92, format by format, as a number. -/

theorem reservedField_fn (w : Word) : reservedField .fn w = w.toNat % 2 ^ 28 :=
  reservedField_eq .fn w

theorem reservedField_fb (w : Word) : reservedField .fb w = w.toNat / 2 ^ 8 % 2 ^ 20 :=
  reservedField_eq .fb w

theorem reservedField_ft (w : Word) : reservedField .ft w = w.toNat / 2 ^ 24 % 2 ^ 4 :=
  reservedField_eq .ft w

theorem reservedField_fi (w : Word) : reservedField .fi w = w.toNat / 2 ^ 16 % 2 ^ 12 :=
  reservedField_eq .fi w

theorem reservedField_fx (w : Word) : reservedField .fx w = w.toNat / 2 ^ 24 % 2 ^ 4 :=
  reservedField_eq .fx w

/-- Rule R102 on a word whose opcode is known and whose reserved bits are 0. -/
theorem decodeCommand_eq_commandOf {w : Word} {op : Nat} (hop : opcodeField w = op)
    (hres : reservedField (formatOf op) w = 0) : decodeCommand w = .ok (commandOf op w) := by
  rw [decodeCommand, hop, if_pos hres]

/-! A word of a format decodes by the rows of rule R91 that have this format. -/

theorem decodeCommand_wordFN {op : BitVec 4} (hop : formatOf op.toNat = .fn) :
    decodeCommand (wordFN op) = .ok (commandOf op.toNat (wordFN op)) := by
  apply decodeCommand_eq_commandOf
  · rw [opcodeField_eq, wordFN_toNat]; omega
  · rw [hop, reservedField_fn, wordFN_toNat]; omega

theorem decodeCommand_wordFB {op : BitVec 4} (hop : formatOf op.toNat = .fb) (b : Byte) :
    decodeCommand (wordFB op b) = .ok (commandOf op.toNat (wordFB op b)) := by
  have hb := b.isLt
  apply decodeCommand_eq_commandOf
  · rw [opcodeField_eq, wordFB_toNat]; omega
  · rw [hop, reservedField_fb, wordFB_toNat]; omega

theorem decodeCommand_wordFT {op : BitVec 4} (hop : formatOf op.toNat = .ft) (t : Nat) :
    decodeCommand (wordFT op t) = .ok (commandOf op.toNat (wordFT op t)) := by
  apply decodeCommand_eq_commandOf
  · rw [opcodeField_eq, wordFT_toNat]; omega
  · rw [hop, reservedField_ft, wordFT_toNat]; omega

theorem decodeCommand_wordFI {op : BitVec 4} (hop : formatOf op.toNat = .fi) (i : Nat) :
    decodeCommand (wordFI op i) = .ok (commandOf op.toNat (wordFI op i)) := by
  apply decodeCommand_eq_commandOf
  · rw [opcodeField_eq, wordFI_toNat]; omega
  · rw [hop, reservedField_fi, wordFI_toNat]; omega

theorem decodeCommand_wordFX {op : BitVec 4} (hop : formatOf op.toNat = .fx) (tag : Byte)
    (n : Nat) : decodeCommand (wordFX op tag n) = .ok (commandOf op.toNat (wordFX op tag n)) := by
  have htag := tag.isLt
  apply decodeCommand_eq_commandOf
  · rw [opcodeField_eq, wordFX_toNat]; omega
  · rw [hop, reservedField_fx, wordFX_toNat]; omega

theorem Instr.wf_wireData_iff (b : Byte) : (Instr.wireData b).wf = true ↔
    b ≠ startByte ∧ b ≠ escByte ∧ b ≠ xonByte ∧ b ≠ xoffByte := by
  simp [Instr.wf, startByte, escByte, xonByte, xoffByte, and_assoc]

/-- Rule R100: the lowest-priority row is taken for none of the four special bytes. -/
theorem decodeWire_of_not_special {b : Byte} (h : (Instr.wireData b).wf = true) :
    decodeWire b = .wireData b := by
  obtain ⟨hstart, hesc, hxon, hxoff⟩ := (Instr.wf_wireData_iff b).mp h
  rw [decodeWire, if_neg hstart, if_neg hesc, if_neg hxon, if_neg hxoff]

/-- Settles O1: by instruction, its word's opcode selects its row, the reserved bits are 0, and each
operand is read back from its field. -/
theorem decodeOfEncodeIsInstr : Obligations.DecodeOfEncodeIsInstr := by
  intro i hwf
  cases i with
  | rxByte b => exact (decodeCommand_wordFB rfl b).trans (congrArg _ (by simp [commandOf]))
  | txData b => exact (decodeCommand_wordFB rfl b).trans (congrArg _ (by simp [commandOf]))
  | rxWait t =>
    have ht : t < 2 ^ 24 := of_decide_eq_true hwf
    exact (decodeCommand_wordFT rfl t).trans
      (congrArg _ (by simp [commandOf, timeoutField_wordFT _ ht]))
  | rdBuf i =>
    have hi : i < 2 ^ 16 := of_decide_eq_true hwf
    exact (decodeCommand_wordFI rfl i).trans
      (congrArg _ (by simp [commandOf, halfField_wordFI _ hi]))
  | txBegin tag n =>
    have hn : n < 2 ^ 16 := of_decide_eq_true hwf
    exact (decodeCommand_wordFX rfl tag n).trans
      (congrArg _ (by simp [commandOf, halfField_wordFX _ _ hn]))
  | wireData b => exact congrArg _ (decodeWire_of_not_special hwf)
  | wireStart | wireEsc | wireXon | wireXoff => rfl
  | _ => exact decodeCommand_wordFN rfl

/-! A word with no reserved bit set is the word of its format made of its fields. -/

theorem wordFN_of_reservedField {op : BitVec 4} {w : Word} (hop : opcodeField w = op.toNat)
    (hres : reservedField .fn w = 0) : wordFN op = w := by
  rw [opcodeField_eq] at hop
  rw [reservedField_fn] at hres
  apply BitVec.eq_of_toNat_eq
  rw [wordFN_toNat]
  omega

theorem wordFB_of_reservedField {op : BitVec 4} {w : Word} (hop : opcodeField w = op.toNat)
    (hres : reservedField .fb w = 0) : wordFB op (byteField w) = w := by
  rw [opcodeField_eq] at hop
  rw [reservedField_fb] at hres
  apply BitVec.eq_of_toNat_eq
  rw [wordFB_toNat, byteField_toNat]
  omega

theorem wordFT_of_reservedField {op : BitVec 4} {w : Word} (hop : opcodeField w = op.toNat)
    (hres : reservedField .ft w = 0) : wordFT op (timeoutField w) = w := by
  rw [opcodeField_eq] at hop
  rw [reservedField_ft] at hres
  apply BitVec.eq_of_toNat_eq
  rw [wordFT_toNat, timeoutField_eq]
  omega

theorem wordFI_of_reservedField {op : BitVec 4} {w : Word} (hop : opcodeField w = op.toNat)
    (hres : reservedField .fi w = 0) : wordFI op (halfField w) = w := by
  rw [opcodeField_eq] at hop
  rw [reservedField_fi] at hres
  apply BitVec.eq_of_toNat_eq
  rw [wordFI_toNat, halfField_eq]
  omega

theorem wordFX_of_reservedField {op : BitVec 4} {w : Word} (hop : opcodeField w = op.toNat)
    (hres : reservedField .fx w = 0) : wordFX op (tagField w) (halfField w) = w := by
  rw [opcodeField_eq] at hop
  rw [reservedField_fx] at hres
  apply BitVec.eq_of_toNat_eq
  rw [wordFX_toNat, tagField_toNat, halfField_eq]
  omega

/-- Rules R91 and R92, row by row: the operands a command takes from its word are in range, and its
encoding puts them back. -/
theorem commandOf_wf_and_encode {w : Word} {op : Nat} (hlt : op < 16) (hop : opcodeField w = op)
    (hres : reservedField (formatOf op) w = 0) :
    (commandOf op w).wf = true ∧ encode (commandOf op w) = .command w := by
  have htimeout : timeoutField w < 2 ^ 24 := BitVec.isLt _
  have hhalf : halfField w < 2 ^ 16 := BitVec.isLt _
  obtain rfl | rfl | rfl | rfl | rfl | hfn : op = 0x1 ∨ op = 0xD ∨ op = 0x3 ∨ op = 0xA ∨ op = 0xC ∨
      (op = 0x0 ∨ op = 0x2 ∨ op = 0x4 ∨ op = 0x5 ∨ op = 0x6 ∨ op = 0x7 ∨ op = 0x8 ∨ op = 0x9 ∨
        op = 0xB ∨ op = 0xE ∨ op = 0xF) := by
    omega
  · exact ⟨rfl, congrArg _ (wordFB_of_reservedField hop hres)⟩
  · exact ⟨rfl, congrArg _ (wordFB_of_reservedField hop hres)⟩
  · exact ⟨decide_eq_true htimeout, congrArg _ (wordFT_of_reservedField hop hres)⟩
  · exact ⟨decide_eq_true hhalf, congrArg _ (wordFI_of_reservedField hop hres)⟩
  · exact ⟨decide_eq_true hhalf, congrArg _ (wordFX_of_reservedField hop hres)⟩
  · rcases hfn with rfl | rfl | rfl | rfl | rfl | rfl | rfl | rfl | rfl | rfl | rfl <;>
      exact ⟨rfl, congrArg _ (wordFN_of_reservedField hop hres)⟩

/-- The rows of the wire bytes, in the order of their priority. -/
theorem decodeWire_wf_and_encode (b : Byte) :
    (decodeWire b).wf = true ∧ encode (decodeWire b) = .wire b := by
  by_cases hdata : (Instr.wireData b).wf = true
  · rw [decodeWire_of_not_special hdata]
    exact ⟨hdata, rfl⟩
  · obtain rfl | rfl | rfl | rfl : b = startByte ∨ b = escByte ∨ b = xonByte ∨ b = xoffByte := by
      rw [Instr.wf_wireData_iff] at hdata
      tauto
    all_goals exact ⟨rfl, rfl⟩

/-- Settles O2: an accepted word has its reserved bits 0, so it is the word of its row and operands;
a wire byte is the byte of its row. -/
theorem encodeOfDecodeIsUnit : Obligations.EncodeOfDecodeIsUnit := by
  intro e i hdec
  cases e with
  | command w =>
    rw [decode, decodeCommand] at hdec
    split at hdec <;> cases hdec
    next hres => exact commandOf_wf_and_encode (opcodeField_lt w) rfl hres
  | wire b =>
    cases hdec
    exact decodeWire_wf_and_encode b

/-- Settles O4: each closed word is decoded by computing its fields. -/
theorem specWordsDecode : Obligations.SpecWordsDecode :=
  ⟨rfl, rfl, rfl, rfl, rfl, rfl, rfl, rfl, rfl, rfl, rfl, rfl, rfl, rfl, rfl, rfl, rfl, rfl⟩

end Sys2Proof
end

section
/-! PROOFS. The family `other`, the port: the next command, the environment's move, and the
wire-byte rows as RX_BYTE (rules R11, R72, R77 and R100). -/

namespace Sys2Proof.Machine

theorem step_of_decode_ok {s : State} {e : Encoded} {i : Instr} {rest : List Input}
    (hwait : s.wait = none) (hagenda : s.agenda = .unit e :: rest) (hdec : decode e = .ok i) :
    step s = exec i { s with agenda := rest } := by
  simp [step, turn, takeUnit, hwait, hagenda, hdec]

/-- Settles O5: `turn` answers the decoded instruction. -/
theorem stepRunsDecoded : Obligations.StepRunsDecoded := fun _ _ _ _ => step_of_decode_ok

theorem step_of_env {s : State} {e : EnvMove} {rest : List Input}
    (hagenda : s.agenda = .env e :: rest) (hwait : ∀ w, s.wait = some w → w.lifted = false) :
    step s = .next (liftWait (applyEnv e { s with agenda := rest })) := by
  cases hw : s.wait with
  | none => simp [step, turn, hw, hagenda]
  | some w => simp [step, turn, hw, hagenda, hwait w hw]

/-- Rule R12: with no move for anyone the machine stays as it is. -/
theorem step_of_idle {s : State} (hwait : s.wait = none) (hagenda : s.agenda = []) :
    step s = .next s := by
  simp [step, turn, hwait, hagenda]

/-- Rules R11 and R182: while RX_WAIT waits, no host command runs. -/
theorem step_of_waiting {s : State} {w : Wait} (hwait : s.wait = some w)
    (hlifted : w.lifted = false) (hagenda : ∀ e rest, s.agenda ≠ .env e :: rest) :
    step s = .next s := by
  cases ha : s.agenda with
  | nil => simp [step, turn, hwait, hlifted, ha]
  | cons m rest =>
    cases m with
    | unit e => simp [step, turn, hwait, hlifted, ha]
    | env e => exact absurd ha (hagenda e rest)

/-- Settles O6: by the agenda's head and the wait in progress. -/
theorem environmentActsOnlyOnItsOwnState : Obligations.EnvironmentActsOnlyOnItsOwnState :=
  ⟨fun _ _ _ => step_of_env, fun _ => step_of_idle, fun _ _ => step_of_waiting⟩

/-- Settles O19: RX_BYTE and the wire-byte rows are `giveByte`, which refuses the byte. -/
theorem heldResultRefusesBytes : Obligations.HeldResultRefusesBytes := by
  intro b s hheld refused
  have hrefuse (c : Byte) : giveByte c s = refused := if_pos hheld
  exact ⟨congrArg _ (hrefuse b), congrArg _ (hrefuse startByte), congrArg _ (hrefuse escByte),
    congrArg _ (hrefuse xonByte), congrArg _ (hrefuse xoffByte), congrArg _ (hrefuse b)⟩

/-- The rows of the wire bytes, each with the byte it stands for. -/
def WireRow (i : Instr) (b : Byte) : Prop :=
  (i = .wireStart ∧ b = startByte) ∨ (i = .wireEsc ∧ b = escByte) ∨ (i = .wireXon ∧ b = xonByte) ∨
    (i = .wireXoff ∧ b = xoffByte) ∨ i = .wireData b

theorem exec_wireRow {i : Instr} {b : Byte} (h : WireRow i b) (s : State) :
    exec i s = exec (.rxByte b) s := by
  rcases h with ⟨rfl, rfl⟩ | ⟨rfl, rfl⟩ | ⟨rfl, rfl⟩ | ⟨rfl, rfl⟩ | rfl <;> rfl

theorem decodeWire_wireRow (b : Byte) : WireRow (decodeWire b) b := by
  unfold decodeWire
  split
  · next h => exact .inl ⟨rfl, h⟩
  split
  · next h => exact .inr (.inl ⟨rfl, h⟩)
  split
  · next h => exact .inr (.inr (.inl ⟨rfl, h⟩))
  split
  · next h => exact .inr (.inr (.inr (.inl ⟨rfl, h⟩)))
  · exact .inr (.inr (.inr (.inr rfl)))

/-- The command word of RX_BYTE, as a number (rule R92). -/
theorem decode_rxByte_word (b : Byte) :
    decode (.command (BitVec.ofNat 32 (0x10000000 + b.toNat))) = .ok (.rxByte b) := by
  have hword : BitVec.ofNat 32 (0x10000000 + b.toNat) = wordFB 0x1#4 b := by
    have hb := b.isLt
    apply BitVec.eq_of_toNat_eq
    rw [BitVec.toNat_ofNat, wordFB_toNat]
    simp only [BitVec.toNat_ofNat]
    omega
  rw [hword]
  exact decodeOfEncodeIsInstr (.rxByte b) rfl

/-- Settles O20: a wire-byte row is `giveByte` of its byte, as RX_BYTE is; on the port a byte
decodes to its row, and RX_BYTE's word to RX_BYTE. -/
theorem wireBytesActAsRxBytes : Obligations.WireBytesActAsRxBytes := by
  constructor
  case left =>
    intro i b s hrow
    have hresp := congrArg State.resp (giveByte_eq b s)
    exact ⟨giveByte b s, _, exec_wireRow hrow s, rfl, hresp⟩
  case right =>
    intro b s rest hwait
    have hwire := step_of_decode_ok (s := { s with agenda := .unit (.wire b) :: rest }) hwait rfl
      rfl
    have hword := step_of_decode_ok (s := { s with agenda := .unit (.command _) :: rest }) hwait rfl
      (decode_rxByte_word b)
    exact (hwire.trans (exec_wireRow (decodeWire_wireRow b) _)).trans hword.symm

/-- Settles O18: away from the checksum position a byte with room is stored, by the laws of
`bufWrite`. -/
theorem payloadByteIsStored : Obligations.PayloadByteIsStored := by
  intro b d s hkind hstart hesc hd h4 hend hroom
  have hdata : IsDataByte b s := ⟨hstart, hesc⟩
  have hd : unstuffed b s = d := hd.symm
  have hfits : ¬ frameCap s ≤ s.pos.toNat - 4 := Nat.not_le.mpr hroom
  refine ⟨bufWrite s.buf (storeIndex s) d, s.pos + 1#16, exec_rxByte_of_idle hkind ?_,
    pos_succ_toNat hroom, bufRead_bufWrite_same _ _ _, fun a => bufRead_bufWrite_other _ _,
    bufWrite_wf _ _ _⟩
  rw [hdata.rxStep_of_four_le h4, declen_toNat, if_neg hend, if_neg hfits, hd, ckAdd_eq_add]
  rfl

/-- Rule R100's rows of a data byte inside a frame: the escape marker after another, XON, XOFF, and
every byte that is not special. -/
def DataRow (i : Instr) (b : Byte) (s : State) : Prop :=
  (i = .wireEsc ∧ b = escByte ∧ s.esc = true) ∨ (i = .wireXon ∧ b = xonByte) ∨
    (i = .wireXoff ∧ b = xoffByte) ∨ (i = .wireData b ∧ i.wf = true)

theorem DataRow.wireRow {i : Instr} {b : Byte} {s : State} (h : DataRow i b s) : WireRow i b := by
  rcases h with ⟨hi, hb, _⟩ | h | h | ⟨hi, _⟩
  · exact .inr (.inl ⟨hi, hb⟩)
  · exact .inr (.inr (.inl h))
  · exact .inr (.inr (.inr (.inl h)))
  · exact .inr (.inr (.inr (.inr hi)))

theorem DataRow.isDataByte {i : Instr} {b : Byte} {s : State} (h : DataRow i b s) :
    IsDataByte b s := by
  rcases h with ⟨_, rfl, hesc⟩ | ⟨_, rfl⟩ | ⟨_, rfl⟩ | ⟨rfl, hwf⟩
  · exact ⟨by decide, by simp [hesc]⟩
  · exact ⟨by decide, by simp [xonByte, escByte]⟩
  · exact ⟨by decide, by simp [xoffByte, escByte]⟩
  · obtain ⟨hstart, hesc, -⟩ := (Instr.wf_wireData_iff b).mp hwf
    exact ⟨hstart, fun h => hesc h.2⟩

/-- Settles O21: each row is RX_BYTE of its byte, so what it does is the idle byte, the restart, the
escape marker or the data byte of RX_BYTE. -/
theorem wireByteClasses : Obligations.WireByteClasses := by
  intro s hkind
  refine ⟨fun hpos => ?idle,
    fun hpos => ⟨?restart, fun hesc => ?escape, fun i b d hrow hd => ?data⟩⟩
  case idle =>
    have hbyte (b : Byte) := idleByteStartsFrameOrIsNoise b s hkind hpos
    exact ⟨hbyte startByte, hbyte escByte, hbyte xonByte, hbyte xoffByte,
      fun b hb => (hbyte b).trans (by rw [if_neg hb])⟩
  case restart => exact ⟨_, restartByteFailsFrame s hkind hpos, rfl, rfl⟩
  case escape => exact escapeMarkerSetsEscOnly s hkind hpos hesc
  case data =>
    have hrow : DataRow i b s := hrow
    have hdata := hrow.isDataByte
    have hunstuffed : unstuffed b s = d := hd.symm
    obtain ⟨hmsb, hlsb, htag⟩ :=
      headerBytesFillLengthAndTag b d s hkind hdata.notStart hdata.notEscape hd
    rw [exec_wireRow hrow.wireRow]
    refine ⟨exec_rxByte_of_idle hkind ?_, hmsb, hlsb, htag⟩
    rw [hdata.rxStep_eq hpos, hunstuffed]
    rfl

end Sys2Proof.Machine
end

section
/-! PROOFS. The family `other`, the reads, VIEW_FOR and RESET: their responses as numbers, and what
they leave unchanged (rules R94 to R98, R250 to R257 and R341). -/

namespace Sys2Proof.Machine

/-- A response word by its numeric value. -/
theorem respond_eq_of_toNat {w : Word} {n : Nat} (h : w.toNat = n) (s : State) :
    respond w s = { s with resp := some (BitVec.ofNat 32 n) } := by
  rw [← h, BitVec.ofNat_toNat, BitVec.setWidth_eq]
  rfl

/-- Settles O33: each read responds with its register, zero-extended. -/
theorem registerReadsReturnRegister : Obligations.RegisterReadsReturnRegister := fun s =>
  ⟨rfl, congrArg _ (respond_eq_of_toNat (zextByte_toNat s.tag) s),
    congrArg _ (respond_eq_of_toNat ((zextHalf_toNat _).trans (declen_toNat s)) s),
    congrArg _ (respond_eq_of_toNat (zextHalf_toNat s.flen) s),
    congrArg _ (respond_eq_of_toNat (zextByte_toNat s.rxck) s)⟩

/-- SW by its numeric value (rule R95). -/
theorem statusWord_toNat (s : State) (accepted : Bool) : (statusWord s accepted).toNat =
    s.kind.code.toNat + 4 * s.err.code.toNat + 32 * (if s.pos = 0#16 then 0 else 1) +
      64 * s.esc.toNat + 128 * accepted.toNat + 65536 * s.pos.toNat := by
  have hinframe : (inframe s).toNat = if s.pos = 0#16 then 0 else 1 := by
    by_cases hpos : s.pos = 0#16 <;> simp [inframe, hpos]
  rw [statusWord, packStatus_toNat, hinframe]

/-- ACCEPTED is bit 7 (rule R95). -/
theorem statusWord_accepted (s : State) : statusWord s true = statusWord s false + 128#32 := by
  have htrue := statusWord_toNat s true
  have hfalse := statusWord_toNat s false
  have hlt := (statusWord s true).isLt
  simp only [Bool.toNat_true, Bool.toNat_false] at htrue hfalse
  apply BitVec.eq_of_toNat_eq
  rw [BitVec.toNat_add, BitVec.toNat_ofNat]
  omega

/-- Settles O34: the packed words are sums of their fields, with the codes of rules R29 and R300;
RX_BYTE responds with SW of its end state, and ACCEPTED adds 128. -/
theorem statusWordsHaveTheirLayout : Obligations.StatusWordsHaveTheirLayout := by
  refine ⟨fun s => ⟨congrArg _ (respond_eq_of_toNat ?status s),
    congrArg _ (respond_eq_of_toNat (txWord_toNat s) s)⟩,
    fun b s => ⟨fun hkind => ?accepted, fun hheld => ?held⟩⟩
  case status =>
    rw [statusWord_toNat]
    cases s.kind <;> cases s.err <;> simp [Kind.code, Err.code]
  case accepted =>
    have hresp := congrArg some (statusWord_accepted (rxStep b s))
    exact ⟨_, _, exec_rxByte_of_idle hkind rfl, rfl, hresp⟩
  case held => exact congrArg _ (if_pos hheld)

theorem execRdBuf_out_of_range {a : Nat} {s : State} (h : frameCap s ≤ a) :
    execRdBuf a s = .next (respondFree (raiseFault .bufRange s)) := if_pos h

theorem execRdBuf_written {a : Nat} {v : Byte} {s : State} (h : a < frameCap s)
    (hread : bufRead s.buf a = some v) : execRdBuf a s = .next (respond (zextByte v) s) := by
  rw [execRdBuf, if_neg (Nat.not_le.mpr h), hread]

theorem execRdBuf_unwritten {a : Nat} {s : State} (h : a < frameCap s)
    (hread : bufRead s.buf a = none) : execRdBuf a s = .fault (.bufUnwritten a) := by
  rw [execRdBuf, if_neg (Nat.not_le.mpr h), hread]

/-- Settles O35: the three paths of RD_BUF. -/
theorem rdBufReadsWrittenByte : Obligations.RdBufReadsWrittenByte := by
  refine fun a s => ⟨fun hout => ⟨_, execRdBuf_out_of_range hout⟩, fun hin v hread => ?_,
    execRdBuf_unwritten⟩
  exact (execRdBuf_written hin hread).trans (congrArg _ (respond_eq_of_toNat (zextByte_toNat v) s))

theorem viewLookup_eq_none {l : List ViewEntry} {tag : Byte} (h : ∀ e ∈ l, e.tag ≠ tag) :
    viewLookup l tag = none := by
  induction l with
  | nil => rfl
  | cons e es ih =>
    rw [List.forall_mem_cons] at h
    exact (if_neg h.1).trans (ih h.2)

theorem viewResponse_of_not_complete {s : State} (h : s.kind ≠ .complete) :
    viewResponse s = 0x00000000#32 := if_pos h

theorem viewResponse_of_unknown {s : State} (hkind : s.kind = .complete)
    (htag : ∀ e ∈ s.cfg.viewTable, e.tag ≠ s.tag) : viewResponse s = 0x40000000#32 := by
  simp [viewResponse, hkind, viewLookup_eq_none htag]

/-- VW of a known tag by its numeric value (rules R97, R257 and R259). -/
theorem viewWord_toNat (s : State) (e : ViewEntry) : (viewWord s e).toNat =
    2 ^ 31 + (if s.flen.toNat < e.prefixLen then 2 ^ 29 else 0) + 2 ^ 16 * e.viewId.toNat +
      (s.flen.toNat - e.prefixLen) := by
  have hflen := s.flen.isLt
  rw [viewWord, packView_toNat, BitVec.toNat_ofNat]
  by_cases hshort : s.flen.toNat < e.prefixLen
  · simp [hshort, Nat.not_le.mpr hshort, Nat.sub_eq_zero_of_le hshort.le]
  · simp [hshort, Nat.not_lt.mp hshort]
    omega

/-- Settles O36: the response is by KIND and by the entry found for TAG, which in a table of rule R5
is the one entry of that tag. -/
theorem viewForDispatchesOnTag : Obligations.ViewForDispatchesOnTag := by
  have hexec (s : State) : exec .viewFor s = .next (respond (viewResponse s) s) := rfl
  refine fun s => ⟨fun hkind => ?noFrame, fun hkind htag => ?unrecognized,
    fun hkind hwf e he htag => ?view⟩
  case noFrame => rw [hexec, viewResponse_of_not_complete hkind]; rfl
  case unrecognized => rw [hexec, viewResponse_of_unknown hkind htag]; rfl
  case view =>
    obtain ⟨htags, -⟩ := s.cfg.wf_iff.mp hwf
    have hfound := viewLookup_eq_some_of_mem htags he
    rw [htag] at hfound
    rw [hexec, viewResponse_of_viewLookup hkind hfound]
    exact congrArg _ (respond_eq_of_toNat (viewWord_toNat s e) s)

/-- A command whose one effect is a response that does not depend on the response before. -/
theorem exec_eq_respond_idempotent {i : Instr} (hi : i ∈ respondingCommands) (s : State) :
    ∃ w, exec i s = .next (respond w s) ∧ exec i (respond w s) = .next (respond w s) := by
  simp only [respondingCommands, List.mem_cons, List.not_mem_nil, or_false] at hi
  rcases hi with rfl | rfl | rfl | rfl | rfl | rfl | rfl | rfl <;> exact ⟨_, rfl, rfl⟩

/-- RD_BUF in range, where it answers. -/
theorem execRdBuf_idempotent {a : Nat} {s t : State} (ha : a < frameCap s)
    (h : execRdBuf a s = .next t) :
    ∃ w, t = respond w s ∧ execRdBuf a (respond w s) = .next (respond w s) := by
  cases hread : bufRead s.buf a with
  | none => cases (execRdBuf_unwritten ha hread).symm.trans h
  | some v =>
    cases (execRdBuf_written ha hread).symm.trans h
    exact ⟨_, rfl, execRdBuf_written (s := respond _ s) ha hread⟩

/-- Settles O38: a read responds with a word that it does not take from the response. -/
theorem readsHaveNoSideEffect : Obligations.ReadsHaveNoSideEffect := by
  intro i s t hi h
  obtain ⟨w, rfl, hagain⟩ : ∃ w, t = respond w s ∧ exec i (respond w s) = .next (respond w s) := by
    rcases hi with hmem | ⟨a, rfl, ha⟩
    · have hmem : i ∈ respondingCommands := by
        simp only [respondingCommands, List.mem_cons] at hmem ⊢
        tauto
      obtain ⟨w, hw, hagain⟩ := exec_eq_respond_idempotent hmem s
      cases hw.symm.trans h
      exact ⟨w, rfl, hagain⟩
    · exact execRdBuf_idempotent ha h
  exact ⟨rfl, hagain⟩

/-- Settles O39: the registers are those of `resetBlock`, whose Frame Buffer is empty. -/
theorem resetCommandKeepsFaultAndStreams : Obligations.ResetCommandKeepsFaultAndStreams := by
  intro s
  refine ⟨respond 0#32 (resetBlock s), rfl, rfl, rfl, rfl, rfl, rfl, rfl, rfl, rfl, rfl, rfl, rfl,
    rfl, rfl, rfl, rfl, rfl, rfl, rfl, rfl, rfl, rfl, rfl, fun a => ⟨rfl, fun ha => ?_⟩⟩
  exact execRdBuf_unwritten (s := respond 0#32 (resetBlock s)) ha rfl

end Sys2Proof.Machine
end

section
/-! PROOFS. The family `other`, what one command can do: the commands by class, who owns the streams
and the clock (rules R33 to R40), and why RX and TX commands commute (rules R37 and R72). -/

namespace Sys2Proof.Machine

/-! TX commands read and write the encoder's part of the state alone. -/

/-- All of `s` but the encoder's registers, FAULT and TXLOG, which are those of `o`. -/
def withEncoder (s o : State) : State :=
  { s with
    txBusy := o.txBusy
    txRem := o.txRem
    tck := o.tck
    fault := o.fault
    txlog := o.txlog }

/-- TX_BEGIN but for its response. -/
def txBeginEffect (tag : Byte) (n : Nat) (s : State) : State :=
  if s.txBusy then raiseFault .txBeginBusy s
  else if txLenInRange n = false then raiseFault .txLenRange s
  else beginFrame tag n s

/-- TX_DATA but for its response. -/
def txDataEffect (b : Byte) (s : State) : State :=
  if s.txBusy = false then raiseFault .txDataIdle s else dataByte b s

theorem exec_txBegin_eq (tag : Byte) (n : Nat) (s : State) :
    exec (.txBegin tag n) s = .next (respondTx (txBeginEffect tag n s)) := by
  rw [exec, execTxBegin, txBeginEffect]
  split
  · rfl
  split <;> rfl

theorem exec_txData_eq (b : Byte) (s : State) :
    exec (.txData b) s = .next (respondTx (txDataEffect b s)) := by
  rw [exec, execTxData, txDataEffect]
  split <;> rfl

theorem beginFrame_withEncoder (tag : Byte) (n : Nat) (s o : State) :
    beginFrame tag n (withEncoder s o) = withEncoder s (beginFrame tag n o) := by
  unfold beginFrame
  dsimp only
  split <;> rfl

theorem dataByte_withEncoder (b : Byte) (s o : State) :
    dataByte b (withEncoder s o) = withEncoder s (dataByte b o) := by
  unfold dataByte
  rw [show (withEncoder s o).txRem = o.txRem from rfl]
  dsimp only
  split <;> rfl

theorem txBeginEffect_withEncoder (tag : Byte) (n : Nat) (s o : State) :
    txBeginEffect tag n (withEncoder s o) = withEncoder s (txBeginEffect tag n o) := by
  unfold txBeginEffect
  rw [show (withEncoder s o).txBusy = o.txBusy from rfl, beginFrame_withEncoder]
  split
  · rfl
  split <;> rfl

theorem txDataEffect_withEncoder (b : Byte) (s o : State) :
    txDataEffect b (withEncoder s o) = withEncoder s (txDataEffect b o) := by
  unfold txDataEffect
  rw [show (withEncoder s o).txBusy = o.txBusy from rfl, dataByte_withEncoder]
  split <;> rfl

/-- TX_BEGIN and TX_DATA. -/
def TxCommand (i : Instr) : Prop := (∃ tag n, i = .txBegin tag n) ∨ ∃ b, i = .txData b

/-- A TX command answers, and what it does is an update of the encoder's part by that part, and the
response. -/
theorem exec_tx_eq {i : Instr} (hi : TxCommand i) :
    ∃ f : State → State, (∀ s o, f (withEncoder s o) = withEncoder s (f o)) ∧
      ∀ s, exec i s = .next (respondTx (f s)) := by
  obtain ⟨tag, n, rfl⟩ | ⟨b, rfl⟩ := hi
  · exact ⟨_, txBeginEffect_withEncoder tag n, exec_txBegin_eq tag n⟩
  · exact ⟨_, txDataEffect_withEncoder b, exec_txData_eq b⟩

theorem closeFrame_txlog (s : State) : (closeFrame s).txlog =
    s.txlog ++ ((stuff (ckFinal s.tck)).map Event.write ++ [Event.flush]) :=
  List.append_assoc ..

theorem beginFrame_txlog (tag : Byte) (n : Nat) (s : State) :
    s.txlog <+: (beginFrame tag n s).txlog := by
  unfold beginFrame
  dsimp only
  split <;> simp [closeFrame_txlog]

theorem dataByte_txlog (b : Byte) (s : State) : s.txlog <+: (dataByte b s).txlog := by
  unfold dataByte
  dsimp only
  split <;> simp [closeFrame_txlog]

/-- Rule R39: a TX command only appends to TXLOG. -/
theorem exec_tx_txlog {i : Instr} (hi : TxCommand i) {s t : State} (h : exec i s = .next t) :
    s.txlog <+: t.txlog := by
  obtain ⟨tag, n, rfl⟩ | ⟨b, rfl⟩ := hi
  · cases (exec_txBegin_eq tag n s).symm.trans h
    show s.txlog <+: (txBeginEffect tag n s).txlog
    unfold txBeginEffect
    split
    · exact List.prefix_rfl
    split
    · exact List.prefix_rfl
    · exact beginFrame_txlog tag n s
  · cases (exec_txData_eq b s).symm.trans h
    show s.txlog <+: (txDataEffect b s).txlog
    unfold txDataEffect
    split
    · exact List.prefix_rfl
    · exact dataByte_txlog b s

/-! RX commands leave the encoder's part, the clock, the parameters and the agenda. -/

/-- The RX commands of rule R72, with the wire-byte rows. -/
def RxCommand (i : Instr) : Prop :=
  i = .rxPoll ∨ i = .rxAck ∨ (∃ n, i = .rxWait n) ∨ (∃ b, i = .rxByte b) ∨ i = .wireStart ∨
    i = .wireEsc ∨ i = .wireXon ∨ i = .wireXoff ∨ ∃ b, i = .wireData b

/-- RX_BYTE and each wire-byte row give the decoder one byte. -/
theorem RxCommand.cases {i : Instr} (hi : RxCommand i) :
    i = .rxPoll ∨ i = .rxAck ∨ (∃ n, i = .rxWait n) ∨
      ∃ b, ∀ s, exec i s = .next (giveByte b s) := by
  rcases hi with h | h | h | ⟨b, rfl⟩ | rfl | rfl | rfl | rfl | ⟨b, rfl⟩
  case inl => exact .inl h
  case inr.inl => exact .inr (.inl h)
  case inr.inr.inl => exact .inr (.inr (.inl h))
  all_goals exact .inr (.inr (.inr ⟨_, fun _ => rfl⟩))

/-- Everything outside the decoder but the response, the wait and RXQ is the same in both states,
and RXQ has at most lost bytes from its front. -/
def RxFrame (s t : State) : Prop :=
  SameOutsideDecoder { s with resp := t.resp, wait := t.wait } t ∧ t.rxq <:+ s.rxq

theorem RxFrame.of_same {s u : State} (h : SameOutsideDecoder s u) (hrxq : u.rxq <:+ s.rxq)
    (r : Option Word) (w : Option Wait) : RxFrame s { u with resp := r, wait := w } := by
  obtain ⟨hcfg, hbusy, hrem, htck, hfault, hlog, hnow, -, -, hagenda, hdraws⟩ := h
  exact ⟨⟨hcfg, hbusy, hrem, htck, hfault, hlog, hnow, rfl, rfl, hagenda, hdraws⟩, hrxq⟩

theorem release_sameOutside (s : State) : SameOutsideDecoder s (release s) := by
  constructor <;> simp

theorem giveByte_rxFrame (b : Byte) (s : State) : RxFrame s (giveByte b s) := by
  rw [giveByte_eq]
  refine .of_same (offerByte_sameOutside b s) ?_ _ (offerByte b s).wait
  rw [offerByte_rxq]

/-- Rule R63: the loop takes bytes off the front of RXQ. -/
theorem pollBody_rxq (s : State) : (pollBody s).rxq <:+ s.rxq := by
  obtain ⟨used, left, hsplit, hpoll, -⟩ := pollBody_eq_feed s
  rw [hpoll, hsplit]
  exact List.suffix_append used left

theorem pollBody_release_sameOutside (s : State) :
    SameOutsideDecoder s (pollBody (release s)) :=
  (release_sameOutside s).trans (pollBytes_sameOutside (release s).rxq (release s))

theorem pollBody_release_rxq (s : State) : (pollBody (release s)).rxq <:+ s.rxq := by
  simpa using pollBody_rxq (release s)

theorem waitIterate_release_rxFrame (w : Wait) (s : State) :
    RxFrame s (waitIterate w (release s)) := by
  have hsame := pollBody_release_sameOutside s
  have hrxq := pollBody_release_rxq s
  unfold waitIterate
  dsimp only
  split
  · exact .of_same hsame hrxq _ _
  split
  · refine RxFrame.of_same (u := resetSession (pollBody (release s))) (hsame.trans ?_) hrxq _ _
    constructor <;> rfl
  · exact .of_same hsame hrxq _ _

theorem exec_rx_frame {i : Instr} (hi : RxCommand i) {s t : State} (h : exec i s = .next t) :
    RxFrame s t := by
  obtain rfl | rfl | ⟨n, rfl⟩ | ⟨b, hb⟩ := hi.cases
  · cases h
    exact .of_same (pollBody_release_sameOutside s) (pollBody_release_rxq s) _
      (pollBody (release s)).wait
  · cases h
    exact .of_same (release_sameOutside s) (by rw [release_rxq]) _ (release s).wait
  · cases h
    exact waitIterate_release_rxFrame _ s
  · cases (hb s).symm.trans h
    exact giveByte_rxFrame b s

/-- (inversion) what a command that answers can do, by class. -/
inductive ExecCases (s : State) : Instr → State → Prop where
  | respond {i : Instr} (hi : i ∈ respondingCommands) (w : Word) : ExecCases s i (respond w s)
  | rdBuf (a : Nat) (x : BitVec 8) (r : Option Word) (d : Nat) :
      ExecCases s (.rdBuf a) { s with fault := x, resp := r, draws := d }
  | tx {i : Instr} (hi : TxCommand i) (o : State) (hlog : s.txlog <+: o.txlog) :
      ExecCases s i (respondTx (withEncoder s o))
  | rx {i : Instr} (hi : RxCommand i) {t : State} (h : RxFrame s t) : ExecCases s i t
  | reset : ExecCases s .reset (Machine.respond 0#32 (resetBlock s))

theorem execRdBuf_cases {a : Nat} {s t : State} (h : execRdBuf a s = .next t) :
    ExecCases s (.rdBuf a) t := by
  unfold execRdBuf at h
  split at h
  · cases h
    exact .rdBuf a _ _ _
  split at h <;> cases h
  exact .rdBuf a s.fault _ s.draws

theorem exec_tx_cases {i : Instr} (hi : TxCommand i) {s t : State} (h : exec i s = .next t) :
    ExecCases s i t := by
  obtain ⟨f, hf, hexec⟩ := exec_tx_eq hi
  have hlog := exec_tx_txlog hi h
  cases (hexec s).symm.trans h
  have hown : f s = withEncoder s (f s) := hf s s
  rw [hown]
  exact .tx hi (f s) hlog

theorem exec_cases {i : Instr} {s t : State} (h : exec i s = .next t) : ExecCases s i t := by
  have hrespond (hi : i ∈ respondingCommands) : ExecCases s i t := by
    obtain ⟨w, hw⟩ := exec_eq_respond hi s
    cases hw.symm.trans h
    exact .respond hi w
  have hrx (hi : RxCommand i) : ExecCases s i t := .rx hi (exec_rx_frame hi h)
  cases i with
  | nop | rdStatus | rdTag | rdDeclen | rdFlen | rdCksum | viewFor | rdTxstat =>
    exact hrespond (by simp [respondingCommands])
  | rdBuf a => exact execRdBuf_cases h
  | txBegin tag n => exact exec_tx_cases (.inl ⟨tag, n, rfl⟩) h
  | txData b => exact exec_tx_cases (.inr ⟨b, rfl⟩) h
  | reset => cases h; exact .reset
  | rxByte | rxPoll | rxWait | rxAck | wireStart | wireEsc | wireXon | wireXoff | wireData =>
    exact hrx (by simp [RxCommand])

/-- RXQ is read by RX_POLL and RX_WAIT alone. -/
theorem exec_rx_rxq {i : Instr} (hi : RxCommand i) (hwait : ∀ n, i ≠ .rxWait n)
    (hpoll : i ≠ .rxPoll) {s t : State} (h : exec i s = .next t) : t.rxq = s.rxq := by
  obtain rfl | rfl | ⟨n, rfl⟩ | ⟨b, hb⟩ := hi.cases
  · exact absurd rfl hpoll
  · cases h
    exact release_rxq s
  · exact absurd rfl (hwait n)
  · cases (hb s).symm.trans h
    rw [giveByte_eq]
    exact offerByte_rxq b s

/-- Settles O44: by class of command. -/
theorem streamsAndClockHaveOneOwner : Obligations.StreamsAndClockHaveOneOwner := by
  intro i s t h
  cases exec_cases h with
  | respond | rdBuf =>
    exact ⟨rfl, rfl, rfl, List.prefix_rfl, List.suffix_rfl, fun _ _ => rfl,
      fun _ _ => ⟨rfl, fun _ => ⟨rfl, rfl, rfl⟩⟩⟩
  | tx hi o hlog =>
    refine ⟨rfl, rfl, rfl, hlog, List.suffix_rfl, fun _ _ => rfl, fun hbegin hdata => ?_⟩
    obtain ⟨tag, n, rfl⟩ | ⟨b, rfl⟩ := hi
    · exact absurd rfl (hbegin tag n)
    · exact absurd rfl (hdata b)
  | rx hi hframe =>
    obtain ⟨hsame, hsuffix⟩ := hframe
    exact ⟨hsame.now, hsame.cfg, hsame.agenda, hsame.txlog ▸ List.prefix_rfl, hsuffix,
      fun hwait hpoll => exec_rx_rxq hi hwait hpoll h,
      fun _ _ => ⟨hsame.txlog, fun _ => ⟨hsame.txBusy, hsame.txRem, hsame.tck⟩⟩⟩
  | reset =>
    exact ⟨rfl, rfl, rfl, List.prefix_rfl, List.suffix_rfl, fun _ _ => rfl,
      fun _ _ => ⟨rfl, fun hne => absurd rfl hne⟩⟩

/-! RX commands do not look at the encoder's part. -/

theorem feed_withEncoder (bs : List Byte) (s o : State) :
    feed bs (withEncoder s o) = withEncoder (feed bs s) o := by
  refine (feed_graft bs (s := s) (o := withEncoder s o) rfl).trans ?_
  conv_rhs => rw [graft_feed_eq bs s]
  rfl

theorem release_withEncoder (s o : State) :
    release (withEncoder s o) = withEncoder (release s) o := by
  unfold release
  rw [show (withEncoder s o).kind = s.kind from rfl]
  split <;> rfl

theorem pollBody_withEncoder (s o : State) :
    pollBody (withEncoder s o) = withEncoder (pollBody s) o := by
  refine pollBytes_comm (f := fun u => withEncoder u o) (fun _ => rfl) (fun _ _ => rfl) ?_ s.rxq s
  intro b u hkind
  rw [← offerByte_idle hkind, ← offerByte_idle (by exact hkind)]
  exact feed_withEncoder [b] u o

theorem giveByte_withEncoder (b : Byte) (s o : State) :
    giveByte b (withEncoder s o) = withEncoder (giveByte b s) o := by
  have hoffer : offerByte b (withEncoder s o) = withEncoder (offerByte b s) o :=
    feed_withEncoder [b] s o
  simp only [giveByte_eq, hoffer]
  rfl

theorem waitIterate_withEncoder (w : Wait) (s o : State) :
    waitIterate w (withEncoder s o) = withEncoder (waitIterate w s) o := by
  unfold waitIterate
  simp only [pollBody_withEncoder]
  rw [show (withEncoder (pollBody s) o).kind = (pollBody s).kind from rfl,
    show (withEncoder (pollBody s) o).now = (pollBody s).now from rfl]
  split
  · rfl
  split <;> rfl

theorem exec_rx_withEncoder {i : Instr} (hi : RxCommand i) {s t : State} (h : exec i s = .next t)
    (o : State) : exec i (withEncoder s o) = .next (withEncoder t o) := by
  obtain rfl | rfl | ⟨n, rfl⟩ | ⟨b, hb⟩ := hi.cases
  · cases h
    rw [exec, execRxPoll, release_withEncoder, pollBody_withEncoder]
    rfl
  · cases h
    rw [exec, execRxAck, release_withEncoder]
    rfl
  · cases h
    rw [exec, execRxWait, release_withEncoder, waitIterate_withEncoder]
    rfl
  · cases (hb s).symm.trans h
    rw [hb, giveByte_withEncoder]

theorem giveByte_with_resp (b : Byte) (s : State) (r : Option Word) :
    giveByte b { s with resp := r } = giveByte b s := by
  have hoffer : offerByte b { s with resp := r } = { offerByte b s with resp := r } :=
    feed_with_resp [b] s r
  simp only [giveByte_eq, hoffer]
  rfl

/-- No RX command reads the response of the command before. -/
theorem exec_rx_with_resp {i : Instr} (hi : RxCommand i) (s : State) (r : Option Word) :
    exec i { s with resp := r } = exec i s := by
  obtain rfl | rfl | ⟨n, rfl⟩ | ⟨b, hb⟩ := hi.cases
  · exact exec_rxPoll_with_resp s r
  · exact exec_rxAck_with_resp s r
  · exact exec_rxWait_with_resp n s r
  · rw [hb, hb, giveByte_with_resp]

theorem exec_rx_answers {i : Instr} (hi : RxCommand i) (s : State) : ∃ t, exec i s = .next t := by
  obtain rfl | rfl | ⟨n, rfl⟩ | ⟨b, hb⟩ := hi.cases
  · exact ⟨_, rfl⟩
  · exact ⟨_, rfl⟩
  · exact ⟨_, rfl⟩
  · exact ⟨_, hb s⟩

/-- Settles O46: the RX command leads to the same `t` beside any encoder, and the TX command to the
same encoder `f s` beside any decoder, so both orders end in the decoder of `t` and the encoder of
`f s`. -/
theorem rxAndTxCommandsCommute : Obligations.RxAndTxCommandsCommute := by
  intro rx tx s hrx htx
  have hrx : RxCommand rx := hrx
  obtain ⟨t, ht⟩ := exec_rx_answers hrx s
  obtain ⟨f, hf, hexec⟩ := exec_tx_eq htx
  obtain ⟨hsame, -⟩ := exec_rx_frame hrx ht
  have htx_first : exec rx (respondTx (f s)) = .next (withEncoder t (f s)) := by
    have hown : f s = withEncoder s (f s) := hf s s
    refine (exec_rx_with_resp hrx (f s) _).trans ?_
    rw [hown]
    exact exec_rx_withEncoder hrx ht (f s)
  have hrx_first : f t = withEncoder t (f s) := by
    have hown : t = withEncoder t s := by
      obtain ⟨-, hbusy, hrem, htck, hfault, hlog, -⟩ := hsame
      rw [withEncoder, ← hbusy, ← hrem, ← htck, ← hfault, ← hlog]
    rw [hown]
    exact hf t s
  refine ⟨respondTx (f t), withEncoder t (f s), ?_, ?_, ?_⟩
  · rw [runAll_cons ht, runAll_cons (hexec t), runAll]
  · rw [runAll_cons (hexec s), runAll_cons htx_first, runAll]
  · rw [hrx_first]
    rfl

end Sys2Proof.Machine
end

section
/-! PROOFS. The family `other`, RX_POLL: the bytes it takes, what it leaves unchanged, and delivery
in pieces (rules R181 and R193). -/

namespace Sys2Proof.Machine

/-- Neither RXQ nor the response before matters to RX_BYTE over a list. -/
theorem runAll_rxByte_with (bs : List Byte) (s : State) (r : Option Word) (q : List Byte) :
    ∃ r', runAll (bs.map .rxByte) { s with resp := r, rxq := q } =
      .next { feed bs s with resp := r', rxq := q } := by
  obtain ⟨r', hrun⟩ := runAll_rxByte bs { s with resp := r, rxq := q }
  have hfeed : feed bs { s with resp := r, rxq := q } = { feed bs s with resp := r, rxq := q } :=
    (feed_with_rxq bs { s with resp := r } q).trans (by rw [feed_with_resp])
  exact ⟨r', hrun.trans (by rw [hfeed])⟩

/-- RX_POLL's loop and its response. -/
def polled (s : State) : State := respond (statusWord (pollBody s) false) (pollBody s)

theorem exec_rxPoll_eq (s : State) : exec .rxPoll s = .next (polled (release s)) := rfl

/-- Settles O22: RX_POLL's loop and RX_BYTE over the bytes it takes are both `feed`. -/
theorem rxPollConsumesUpToResult : Obligations.RxPollConsumesUpToResult := by
  intro s
  obtain ⟨used, left, hsplit, hpoll, hstop, hopen⟩ := pollBody_eq_feed (release s)
  have hrun (bs : List Byte) := runAll_rxByte_with bs (release s)
    (some (statusWord (release s) false)) left
  obtain ⟨r, hused⟩ := hrun used
  refine ⟨respond (statusWord (release s) false) (release s), _, used, left, rfl,
    (release_rxq s).symm.trans hsplit, hused, rfl, hstop, fun k hk => ?before, ?poll⟩
  case before =>
    obtain ⟨r', htake⟩ := hrun (used.take k)
    exact ⟨_, htake, hopen k hk⟩
  case poll =>
    rw [exec_rxPoll_eq, polled, hpoll]
    rfl

/-! What RX_POLL leaves of the Frame Buffer. -/

/-- `written(p)` of rule R172 in natural arithmetic. -/
theorem written_eq (p : Nat) : written p = p - 4 := by
  unfold written
  split <;> omega

/-- The number of payload bytes that the frame in progress, or the result held, has stored. -/
def storedEnd (s : State) : Nat := if s.kind = .none then written s.pos.toNat else s.flen.toNat

theorem storedEnd_idle {s : State} (h : s.kind = .none) : storedEnd s = s.pos.toNat - 4 := by
  rw [storedEnd, if_pos h, written_eq]

theorem storedEnd_finish {k : Kind} (hk : k ≠ .none) (e : Err) (s : State) :
    storedEnd (finish k e s) = s.pos.toNat - 4 := by
  rw [storedEnd, if_neg (by exact hk), finish_flen_toNat]

/-- From `s` to `t` bytes were stored from `written(POS)` of `s` on, and only below the end of what
`t` has stored. -/
structure StoresUpwards (s t : State) : Prop where
  start_le : t.kind = .none → s.pos.toNat - 4 ≤ storedEnd t
  read : ∀ a, a < s.pos.toNat - 4 ∨ storedEnd t ≤ a → bufRead t.buf a = bufRead s.buf a

theorem StoresUpwards.refl {s : State} (hkind : s.kind = .none) : StoresUpwards s s :=
  ⟨fun _ => (storedEnd_idle hkind).ge, fun _ _ => rfl⟩

theorem StoresUpwards.of_buf_eq {s t u : State} (h : StoresUpwards s t) (hkind : t.kind = .none)
    (hbuf : u.buf = t.buf) (hend : storedEnd u = t.pos.toNat - 4) : StoresUpwards s u := by
  rw [← storedEnd_idle hkind] at hend
  exact ⟨fun _ => hend ▸ h.start_le hkind, fun a ha => by rw [hbuf]; exact h.read a (hend ▸ ha)⟩

/-- Rule R171: a payload byte is stored at the end of the payload so far. -/
theorem StoresUpwards.store {s t u : State} (h : StoresUpwards s t) (hkind : t.kind = .none)
    {d : Byte} (hbuf : u.buf = bufWrite t.buf (storeIndex t) d)
    (hend : storedEnd u = t.pos.toNat - 4 + 1) : StoresUpwards s u := by
  have hstart := h.start_le hkind
  have hread := h.read
  rw [storedEnd_idle hkind] at hstart hread
  refine ⟨fun _ => by omega, fun a ha => ?_⟩
  have hother : a ≠ storeIndex t := by rw [storeIndex]; omega
  rw [hbuf, bufRead_bufWrite_other _ _ hother]
  exact hread a (by omega)

theorem DataByteCases.storesUpwards {d : Byte} {s t u : State} (h : DataByteCases d t u)
    (hkind : t.kind = .none) (hs : StoresUpwards s t) : StoresUpwards s u := by
  cases h with
  | lenMsb h | lenLsb h | tag h =>
    exact hs.of_buf_eq hkind rfl ((storedEnd_idle (by exact hkind)).trans (by rw [h]; rfl))
  | complete | checksumFailure | oversize =>
    exact hs.of_buf_eq hkind rfl (storedEnd_finish (by decide) _ _)
  | store h4 _ hroom =>
    refine hs.store hkind rfl ((storedEnd_idle (by exact hkind)).trans ?_)
    have hnext := pos_succ_toNat hroom
    show (t.pos + 1#16).toNat - 4 = _
    omega

theorem rxStep_storesUpwards (b : Byte) {s t : State} (hkind : t.kind = .none)
    (hs : StoresUpwards s t) : StoresUpwards s (rxStep b t) := by
  rcases rxStep_cases b t with ⟨h0, _, h⟩ | ⟨_, _, h⟩ | ⟨_, _, h⟩ | ⟨_, _, _, h⟩ | ⟨_, _, h⟩
  case inl =>
    rw [h]
    exact hs.of_buf_eq hkind rfl ((storedEnd_idle (by exact hkind)).trans (by rw [h0]; rfl))
  case inr.inl => rwa [h]
  case inr.inr.inl =>
    rw [h, stepRestart_eq]
    exact hs.of_buf_eq hkind rfl (storedEnd_finish (k := .failed) (by decide) .unexpectedRestart t)
  case inr.inr.inr.inl => rw [h]; exact hs.of_buf_eq hkind rfl (storedEnd_idle hkind)
  case inr.inr.inr.inr => exact h.storesUpwards hkind hs

theorem pollBody_storesUpwards {s : State} (hkind : s.kind = .none) :
    StoresUpwards s (pollBody s) :=
  pollBytes_preserves (P := StoresUpwards s) (fun _ _ h => ⟨h.start_le, h.read⟩)
    (fun b _ => rxStep_storesUpwards b) s.rxq s (.refl hkind)

/-- Settles O23: RX_POLL is an RX command, so it leaves all but the decoder, and from the release on
the loop stores upwards. -/
theorem rxPollFrame : Obligations.RxPollFrame := by
  intro s t h
  obtain ⟨hsame, used, hused⟩ := exec_rx_frame (.inl rfl) h
  cases h
  have hstored := (pollBody_storesUpwards (release_kind s)).read
  rw [release_pos, release_buf] at hstored
  refine ⟨hsame.cfg, hsame.txBusy, hsame.txRem, hsame.tck, hsame.fault, hsame.txlog, hsame.now,
    (pollBody_release_sameOutside s).wait, hsame.agenda, hsame.draws, ⟨used, hused.symm⟩,
    fun a ha => hstored a ?_⟩
  rwa [written_eq] at ha

/-! Delivery in pieces. -/

/-- RX_POLL responds with SW of its end state, the last one of a delivery too. -/
theorem resp_of_pollChunks {chunks : List (List Byte)} :
    ∀ {s t : State}, chunks ≠ [] → pollChunks chunks s = .next t →
      t.resp = some (statusWord t false) := by
  induction chunks with
  | nil => exact fun hne => absurd rfl hne
  | cons c cs ih =>
    intro s t _ h
    rw [pollChunks, exec_rxPoll_eq] at h
    by_cases hcs : cs = []
    · subst hcs
      cases h
      rfl
    · exact ih hcs h

/-- Rule R193 with the response: RX_POLL over the pieces of a delivery is `feed` of its bytes. -/
theorem pollChunks_eq_feed_statusWord {chunks : List (List Byte)} {s : State} (hrxq : s.rxq = [])
    (hne : chunks ≠ []) (hchunks : ∀ c ∈ chunks, c ≠ []) (hopen : OpenUntilLast chunks.flatten s) :
    pollChunks chunks s = .next { feed chunks.flatten s with
      resp := some (statusWord (feed chunks.flatten s) false) } := by
  obtain ⟨r, hpoll⟩ := pollChunks_eq_feed chunks hrxq hchunks hopen
  have hr : r = _ := resp_of_pollChunks hne hpoll
  rw [hpoll, hr]
  rfl

/-- Settles O55: all three deliveries are `feed` of the bytes, and RX_POLL's last response is SW. -/
theorem partialDelivery : Obligations.PartialDelivery := by
  intro s chunks hkind hrxq hne hchunks ⟨v, hv, hvkind⟩
  obtain ⟨r, hbefore⟩ := runAll_rxByte chunks.flatten.dropLast s
  cases hbefore.symm.trans hv
  have hopen : OpenUntilLast chunks.flatten s := openUntilLast_of_dropLast hvkind
  have hflat : chunks.flatten ≠ [] := fun h => by
    obtain ⟨c, hc⟩ := List.exists_mem_of_ne_nil chunks hne
    exact hchunks c hc (List.flatten_eq_nil_iff.mp h c hc)
  have hsingle : [chunks.flatten].flatten = chunks.flatten := by simp
  obtain ⟨r', hbytes⟩ := runAll_rxByte chunks.flatten s
  refine ⟨_, hbytes, ?whole, ?pieces⟩
  case whole =>
    have hwhole := pollChunks_eq_feed_statusWord (chunks := [chunks.flatten]) hrxq (by simp)
      (by simpa using hflat) (by rwa [hsingle])
    rwa [hsingle] at hwhole
  case pieces => exact pollChunks_eq_feed_statusWord hrxq hne hchunks hopen

end Sys2Proof.Machine
end

section
/-! PROOFS. The family `other`, RX_WAIT: each of its iterations, and when it returns (rules R182 and
R354). -/

namespace Sys2Proof.Machine

/-- Rule R96: after the session reset of a Timeout, RX_WAIT responds KIND = 0b10 and ERR = 4. -/
theorem timeoutWord_resetSession (s : State) : timeoutWord (resetSession s) = 0x00000012#32 := by
  apply BitVec.eq_of_toNat_eq
  rw [timeoutWord, packStatus_toNat]
  rfl

theorem pollBody_now (s : State) : (pollBody s).now = s.now :=
  (pollBytes_sameOutside s.rxq s).now

/-- Rule R182: an iteration of RX_WAIT as what it adds to RX_POLL. -/
theorem waitIterate_eq (w : Wait) (s : State) : waitIterate w s =
    if (polled s).kind ≠ .none then { polled s with wait := none }
    else if (pollBody s).now - w.t0 ≥ w.t then
      { polled s with
        pos := 0#16, rck := 0#8, esc := false, wait := none, resp := some 0x00000012#32 }
    else { polled s with wait := some { w with lifted := false }, resp := none } := by
  unfold waitIterate
  dsimp only
  rw [timeoutWord_resetSession, show (polled s).kind = (pollBody s).kind from rfl]
  split
  · rfl
  split <;> rfl

/-- Settles O24: the clock has not moved since RX_WAIT's start, so the deadline is met for t = 0. -/
theorem rxWaitFirstIteration : Obligations.RxWaitFirstIteration := by
  intro n s
  have hdeadline : (pollBody (release s)).now - s.now ≥ n ↔ n = 0 := by
    rw [pollBody_now, release_now]
    omega
  refine ⟨_, exec_rxPoll_eq s, ?_⟩
  simp only [exec, execRxWait, waitIterate_eq, hdeadline]

/-- Settles O25: with KIND = NONE the release of RX_POLL changes nothing. -/
theorem rxWaitLaterIteration : Obligations.RxWaitLaterIteration := by
  intro w s hwait hlifted hkind
  refine ⟨_, exec_rxPoll_eq s, ?_⟩
  rw [step_of_lifted hwait hlifted, waitIterate_eq, pollBody_now, release_of_none hkind]

/-- (inversion) what an iteration can do: return with a response, or wait on before the deadline. -/
theorem waitIterate_cases (w : Wait) (s : State) :
    ((waitIterate w s).wait = none ∧ (waitIterate w s).resp ≠ none) ∨
    (s.now < w.t0 + w.t ∧ (waitIterate w s).wait = some { w with lifted := false } ∧
      (waitIterate w s).now = s.now ∧ (waitIterate w s).agenda = s.agenda) := by
  have hsame : SameOutsideDecoder s (pollBody s) := pollBytes_sameOutside s.rxq s
  rw [waitIterate_eq, pollBody_now]
  split
  · exact .inl ⟨rfl, nofun⟩
  split
  · exact .inl ⟨rfl, nofun⟩
  · next hearly => exact .inr ⟨by omega, rfl, hsame.now, hsame.agenda⟩

/-- An iteration that finds no byte before the deadline only waits on. -/
theorem waitIterate_of_quiet {w : Wait} {s : State} (hkind : s.kind = .none) (hrxq : s.rxq = [])
    (hearly : s.now - w.t0 < w.t) :
    waitIterate w s = { s with wait := some { w with lifted := false }, resp := none } := by
  have hpoll : pollBody s = s := by rw [pollBody, hrxq, pollBytes]
  unfold waitIterate
  dsimp only
  rw [hpoll, if_neg (by simp [hkind]), if_neg (by omega)]

/-- The state an environment's move leaves for the next iteration of a waiting RX_WAIT. -/
def lifted (e : EnvMove) (rest : List Input) (s : State) : State :=
  liftWait (applyEnv e { s with agenda := rest })

/-- While RX_WAIT waits, a move of the environment and the iteration after it are two steps. -/
theorem runSteps_of_waiting {s : State} {w : Wait} {e : EnvMove} {rest : List Input}
    (hwait : s.wait = some w) (hlifted : w.lifted = false) (hagenda : s.agenda = .env e :: rest)
    (k : Nat) :
    runSteps (k + 2) s = runSteps k (waitIterate { w with lifted := true } (lifted e rest s)) := by
  have hmove : step s = .next (lifted e rest s) :=
    step_of_env hagenda fun w' hw' => by rw [← Option.some.inj (hwait.symm.trans hw'), hlifted]
  have hiterate : (lifted e rest s).wait = some { w with lifted := true } :=
    congrArg (Option.map _) hwait
  rw [runSteps, hmove]
  dsimp only
  rw [runSteps, step_of_lifted hiterate rfl]

/-- The wait after an iteration that waits on is the wait before the move that lifted it. -/
theorem wait_lower_lift {w : Wait} (h : w.lifted = false) :
    ({ { w with lifted := true } with lifted := false } : Wait) = w := by
  rw [← h]

/-- Rule R354: a wait whose deadline the moves reach returns within two steps for each of them. -/
theorem wait_returns (es : List EnvMove) (rest : List Input) {w : Wait}
    (hlifted : w.lifted = false) :
    ∀ {s : State}, s.wait = some w → s.agenda = es.map .env ++ rest → es ≠ [] →
      w.t0 + w.t ≤ s.now + (es.map EnvMove.advance).sum →
      ∃ k t, k ≤ 2 * es.length ∧ runSteps k s = .next t ∧ t.wait = none ∧ t.resp ≠ none := by
  induction es with
  | nil => exact fun _ _ hne => absurd rfl hne
  | cons e es ih =>
    intro s hwait hagenda _ hdeadline
    have htwo := runSteps_of_waiting hwait hlifted hagenda
    rw [List.map_cons, List.sum_cons] at hdeadline
    rw [List.length_cons]
    obtain ⟨hdone, hresp⟩ | ⟨hearly, hwait', hnow, hagenda'⟩ := waitIterate_cases
      { w with lifted := true } (lifted e (es.map .env ++ rest) s)
    · exact ⟨2, _, by omega, htwo 0, hdone, hresp⟩
    · have hlater : s.now + e.advance < w.t0 + w.t := hearly
      have hnow : _ = s.now + e.advance := hnow
      have hne : es ≠ [] := by
        rintro rfl
        rw [List.map_nil, List.sum_nil] at hdeadline
        omega
      obtain ⟨k, t, hk, hrun, ht⟩ := ih (hwait'.trans (congrArg some (wait_lower_lift hlifted)))
        hagenda' hne (by omega)
      exact ⟨k + 2, t, by omega, (htwo k).trans hrun, ht⟩

/-- Rule R354's premise is needed: with no byte and the deadline not met, the wait goes on. -/
theorem wait_goes_on (es : List EnvMove) (rest : List Input) {w : Wait}
    (hlifted : w.lifted = false) :
    ∀ {s : State}, s.wait = some w → s.agenda = es.map .env ++ rest → s.kind = .none →
      s.rxq = [] → w.t0 ≤ s.now → (∀ e ∈ es, e.arrive = []) →
      s.now + (es.map EnvMove.advance).sum < w.t0 + w.t →
      ∃ t, runSteps (2 * es.length) s = .next t ∧ t.wait = some w := by
  induction es with
  | nil => exact fun {s} hwait _ _ _ _ _ _ => ⟨s, rfl, hwait⟩
  | cons e es ih =>
    intro s hwait hagenda hkind hrxq hstart hquiet hearly
    rw [List.forall_mem_cons] at hquiet
    obtain ⟨hnone, hquiet⟩ := hquiet
    rw [List.map_cons, List.sum_cons] at hearly
    rw [List.map_cons, List.cons_append] at hagenda
    have hrxq' : (lifted e (es.map .env ++ rest) s).rxq = [] := by
      show s.rxq ++ e.arrive = []
      rw [hrxq, hnone, List.append_nil]
    have hnext := waitIterate_of_quiet (w := { w with lifted := true })
      (s := lifted e (es.map .env ++ rest) s) hkind hrxq'
      (by show s.now + e.advance - w.t0 < w.t; omega)
    rw [List.length_cons, Nat.mul_succ, runSteps_of_waiting hwait hlifted hagenda, hnext,
      wait_lower_lift hlifted]
    refine ih rfl rfl hkind hrxq' ?_ hquiet ?_
    · show w.t0 ≤ s.now + e.advance
      omega
    · show s.now + e.advance + _ < _
      omega

/-- Settles O26: by induction over the moves, two steps for each. -/
theorem rxWaitTerminates : Obligations.RxWaitTerminates := fun es rest _ _ hwait hlifted hagenda =>
  ⟨wait_returns es rest hlifted hwait hagenda, wait_goes_on es rest hlifted hwait hagenda⟩

end Sys2Proof.Machine
end

section
/-! PROOFS. The family `other`, the encoder: TX_BEGIN, TX_DATA and a whole frame (rules R222 to R224
and R230). -/

namespace Sys2Proof.Machine

/-! TX_BEGIN and TX_DATA, one equation per path. -/

theorem txLenInRange_iff (n : Nat) : txLenInRange n = true ↔ n ≤ 0xFFFE := by
  simp [txLenInRange]

theorem txBeginEffect_of_busy (tag : Byte) (n : Nat) {s : State} (h : s.txBusy = true) :
    txBeginEffect tag n s = raiseFault .txBeginBusy s := if_pos h

theorem txBeginEffect_of_too_long (tag : Byte) {n : Nat} {s : State} (h : s.txBusy = false)
    (hn : 0xFFFE < n) : txBeginEffect tag n s = raiseFault .txLenRange s := by
  have hrange : txLenInRange n = false := by
    rw [← Bool.not_eq_true, txLenInRange_iff]
    omega
  simp [txBeginEffect, h, hrange]

theorem txBeginEffect_of_idle (tag : Byte) {n : Nat} {s : State} (h : s.txBusy = false)
    (hn : n ≤ 0xFFFE) : txBeginEffect tag n s = beginFrame tag n s := by
  simp [txBeginEffect, h, (txLenInRange_iff n).mpr hn]

theorem txDataEffect_of_idle (b : Byte) {s : State} (h : s.txBusy = false) :
    txDataEffect b s = raiseFault .txDataIdle s := if_pos h

theorem txDataEffect_of_busy (b : Byte) {s : State} (h : s.txBusy = true) :
    txDataEffect b s = dataByte b s := if_neg (by simp [h])

/-- Rules R99 and R221: the stuffed header, with the length field's bytes as numbers. -/
theorem headerWire_eq (tag : Byte) (n : Nat) : headerWire tag n =
    startByte :: stuffAll
      [BitVec.ofNat 8 ((n + 1) / 256), BitVec.ofNat 8 ((n + 1) % 256), tag] := by
  simp [headerWire, stuffAll, msb_lengthField, lsb_lengthField]

theorem beginFrame_of_pos (tag : Byte) {n : Nat} (hn : n ≠ 0) (s : State) :
    beginFrame tag n s = { s with
      tck := tag
      txBusy := true
      txRem := BitVec.ofNat 16 n
      txlog := s.txlog ++ (headerWire tag n).map .write } := if_neg hn

/-- The checksum that closes a frame is that of the tag and the payload (rules R132 and R226). -/
theorem ckFinal_foldl_ckAdd (tag : Byte) (p : List Byte) :
    ckFinal (p.foldl ckAdd tag) = ckCompute (tag :: p) := by
  apply BitVec.eq_of_toNat_eq
  rw [ckFinal_toNat, ckCompute_toNat, foldl_ckAdd_toNat]
  rfl

theorem ckFinal_eq_not (acc : Byte) : ckFinal acc = ~~~acc := ofNat_sub_eq_not acc

/-- Rule R220: a frame is its header, its payload and its checksum. -/
theorem frameWire_eq (tag : Byte) (p : List Byte) : frameWire tag p =
    headerWire tag p.length ++ stuffAll p ++ stuff (ckFinal (p.foldl ckAdd tag)) := by
  have hlast (c : Byte) : stuffAll [c] = stuff c := List.append_nil _
  rw [ckFinal_foldl_ckAdd, headerWire_eq, ← msb_lengthField, ← lsb_lengthField, frameWire,
    frameBody, stuffAll_append, stuffAll_append, hlast]
  rfl

theorem beginFrame_zero (tag : Byte) (s : State) :
    beginFrame tag 0 s = { s with tck := tag, txlog := s.txlog ++ encodeFrame tag [] } := by
  have hlog : encodeFrame tag [] =
      (headerWire tag 0).map .write ++ ((stuff (ckFinal tag)).map .write ++ [.flush]) := by
    rw [encodeFrame, frameWire_eq]
    simp [stuffAll]
  rw [hlog, ← List.append_assoc, ← List.append_assoc]
  rfl

/-- Settles O28: the checks of TX_BEGIN in their order, and the two kinds of frame. -/
theorem txBeginOpensOrSendsFrame : Obligations.TxBeginOpensOrSendsFrame := by
  intro tag n s header
  rw [exec_txBegin_eq]
  refine ⟨fun hbusy => ?busy, fun hidle hn => ?tooLong, fun hidle hn => ?empty,
    fun hidle hpos hn => ?frame⟩
  case busy => rw [txBeginEffect_of_busy tag n hbusy]; rfl
  case tooLong => rw [txBeginEffect_of_too_long tag hidle hn]; rfl
  case empty => rw [hn, txBeginEffect_of_idle tag hidle (by omega), beginFrame_zero]
  case frame =>
    have hheader : headerWire tag n = 0x7E#8 :: header := by
      rw [headerWire_eq]
      simp [stuffAll, header, startByte]
    rw [txBeginEffect_of_idle tag hidle hn, beginFrame_of_pos tag (by omega), hheader]

theorem dataByte_of_more (b : Byte) {s : State} (h : s.txRem - 1#16 ≠ 0#16) :
    dataByte b s = { s with
      tck := ckAdd s.tck b
      txRem := s.txRem - 1#16
      txlog := s.txlog ++ (stuff b).map .write } := if_neg h

theorem dataByte_of_last (b : Byte) {s : State} (h : s.txRem = 1#16) :
    dataByte b s = { s with
      tck := ckAdd s.tck b
      txRem := 0#16
      txBusy := false
      txlog :=
        s.txlog ++ (stuff b ++ stuff (ckFinal (ckAdd s.tck b))).map .write ++ [.flush] } := by
  have hlast : s.txRem - 1#16 = 0#16 := by rw [h]; rfl
  rw [List.map_append, ← List.append_assoc s.txlog, ← hlast]
  exact if_pos hlast

/-- Settles O29: the idle fault, a byte with more to come, and the byte that closes the frame. -/
theorem txDataSendsByteAndClosesFrame : Obligations.TxDataSendsByteAndClosesFrame := by
  intro b s
  rw [exec_txData_eq]
  refine ⟨fun hidle => ?idle, fun hbusy hrem => ?more, fun hbusy hrem => ?last⟩
  case idle => rw [txDataEffect_of_idle b hidle]; rfl
  case more =>
    have hmore : s.txRem - 1#16 ≠ 0#16 := fun h => hrem (by bv_omega)
    rw [txDataEffect_of_busy b hbusy, dataByte_of_more b hmore, ckAdd_eq_add]
  case last =>
    rw [txDataEffect_of_busy b hbusy, dataByte_of_last b hrem, ckFinal_eq_not, ckAdd_eq_add]

/-! A frame command by command. -/

theorem runAll_append {a : List Instr} {s t : State} (h : runAll a s = .next t) (b : List Instr) :
    runAll (a ++ b) s = runAll b t := by
  induction a generalizing s with
  | nil => cases h; rfl
  | cons i is ih =>
    cases hi : exec i s with
    | next u =>
      rw [runAll_cons hi] at h
      rw [List.cons_append, runAll_cons hi, ih h]
    | fault x => rw [runAll, hi] at h; cases h
    | refused x => rw [runAll, hi] at h; cases h

/-- The state of an open frame of `n` bytes after TX_BEGIN in `s` and TX_DATA of the bytes `q`. -/
def openFrame (tag : Byte) (n : Nat) (q : List Byte) (s : State) : State :=
  { s with
    txBusy := true
    txRem := BitVec.ofNat 16 n - BitVec.ofNat 16 q.length
    tck := q.foldl ckAdd tag
    txlog := s.txlog ++ (headerWire tag n ++ stuffAll q).map .write }

theorem respondTx_openFrame (tag : Byte) (n : Nat) (q : List Byte) (s : State) :
    respondTx (openFrame tag n q s) =
      openFrame tag n q { s with resp := some (txWord (openFrame tag n q s)) } := rfl

theorem openFrame_txRem (tag : Byte) {n : Nat} {q : List Byte} (s : State) (hq : q.length ≤ n)
    (hn : n ≤ 0xFFFE) : (openFrame tag n q s).txRem.toNat = n - q.length := by
  show (BitVec.ofNat 16 n - BitVec.ofNat 16 q.length).toNat = _
  rw [BitVec.toNat_sub, BitVec.toNat_ofNat, BitVec.toNat_ofNat]
  omega

theorem beginFrame_eq_openFrame (tag : Byte) {n : Nat} (hn : n ≠ 0) (s : State) :
    beginFrame tag n s = openFrame tag n [] s := by
  rw [beginFrame_of_pos tag hn]
  simp [openFrame, stuffAll]

/-- Rule R223 in an open frame that waits for more bytes than one. -/
theorem dataByte_openFrame (tag : Byte) {n : Nat} {q : List Byte} (b : Byte) (s : State)
    (hq : q.length + 1 < n) (hn : n ≤ 0xFFFE) :
    dataByte b (openFrame tag n q s) = openFrame tag n (q ++ [b]) s := by
  have hrem : BitVec.ofNat 16 n - BitVec.ofNat 16 q.length - 1#16 =
      BitVec.ofNat 16 n - BitVec.ofNat 16 (q ++ [b]).length := by
    rw [List.length_append, BitVec.ofNat_add, sub_sub]
    rfl
  have hnext := openFrame_txRem tag (q := q ++ [b]) s (by simp; omega) hn
  have hmore : (openFrame tag n q s).txRem - 1#16 ≠ 0#16 := fun h => by
    have h0 : (openFrame tag n (q ++ [b]) s).txRem = 0#16 := hrem.symm.trans h
    have hnone : 0 = n - (q.length + 1) := by simpa [h0] using hnext
    omega
  rw [dataByte_of_more b hmore]
  simp [openFrame, stuffAll_append, stuffAll, hrem]

theorem exec_txData_openFrame (tag : Byte) (n : Nat) (q : List Byte) (b : Byte) (s : State) :
    exec (.txData b) (openFrame tag n q s) =
      .next (respondTx (dataByte b (openFrame tag n q s))) := by
  rw [exec_txData_eq, txDataEffect_of_busy b rfl]

/-- Rule R230: TX_BEGIN and TX_DATA of fewer bytes than the frame's leave it open. -/
theorem runAll_txBegin_txData (tag : Byte) {n : Nat} {q : List Byte} {s : State}
    (hidle : s.txBusy = false) (hq : q.length < n) (hn : n ≤ 0xFFFE) :
    ∃ r, runAll (.txBegin tag n :: q.map .txData) s =
      .next (openFrame tag n q { s with resp := r }) := by
  induction q using List.reverseRecOn with
  | nil =>
    have hexec := exec_txBegin_eq tag n s
    rw [txBeginEffect_of_idle tag hidle hn, beginFrame_eq_openFrame tag (by omega),
      respondTx_openFrame] at hexec
    exact ⟨_, runAll_cons hexec []⟩
  | append_singleton q b ih =>
    rw [List.length_append, List.length_singleton] at hq
    obtain ⟨r, hrun⟩ := ih (by omega)
    have hexec := exec_txData_openFrame tag n q b { s with resp := r }
    rw [dataByte_openFrame tag b _ hq hn, respondTx_openFrame] at hexec
    rw [List.map_append, ← List.cons_append, runAll_append hrun]
    exact ⟨_, runAll_cons hexec []⟩

/-- Rule R220: what TXLOG has of an open frame begins every completion of it. -/
theorem openFrame_isPrefix (tag : Byte) {n : Nat} {q r : List Byte} (h : q.length + r.length = n) :
    (headerWire tag n ++ stuffAll q).map Event.write <+: encodeFrame tag (q ++ r) := by
  rw [encodeFrame, frameWire_eq, stuffAll_append, List.length_append, h]
  simp only [List.map_append, List.append_assoc]
  exact ⟨_, by rw [List.append_assoc]⟩

/-- Settles O31: the open frame's TXLOG, TX_REM and TCK are those of `openFrame`. -/
theorem openFrameIsPrefix : Obligations.OpenFrameIsPrefix := by
  intro tag n q s hidle hq hn sent
  have hsent : sent = (headerWire tag n ++ stuffAll q).map .write := by
    simp only [sent, headerWire_eq, stuffAll_append]
    rfl
  obtain ⟨r, hrun⟩ := runAll_txBegin_txData tag hidle hq hn
  refine ⟨_, hrun, rfl, openFrame_txRem tag s hq.le hn, foldl_ckAdd_toNat q tag, rfl, ?log,
    fun r hr => ?completion⟩
  case log => rw [hsent]; rfl
  case completion => rw [hsent]; exact openFrame_isPrefix tag hr

/-- Rule R224: the last TX_DATA closes the frame and brings TXLOG to the whole of it. -/
theorem dataByte_openFrame_last (tag : Byte) (q : List Byte) (b : Byte) {s : State}
    (hidle : s.txBusy = false) (hrem : s.txRem = 0#16) (hq : q.length + 1 ≤ 0xFFFE) :
    dataByte b (openFrame tag (q.length + 1) q s) = { s with
      tck := (q ++ [b]).foldl ckAdd tag
      txlog := s.txlog ++ encodeFrame tag (q ++ [b]) } := by
  have hlast : (openFrame tag (q.length + 1) q s).txRem = 1#16 := by
    apply BitVec.eq_of_toNat_eq
    rw [openFrame_txRem tag s (by omega) hq]
    simp
  have hlog : encodeFrame tag (q ++ [b]) =
      (headerWire tag (q.length + 1) ++ stuffAll q).map .write ++
        ((stuff b ++ stuff (ckFinal ((q ++ [b]).foldl ckAdd tag))).map .write ++ [.flush]) := by
    simp [encodeFrame, frameWire_eq, stuffAll_append, stuffAll]
  rw [dataByte_of_last b hlast, hlog, ← hidle, ← hrem]
  simp [openFrame]

/-- Settles O30: TX_BEGIN sends the empty frame itself; otherwise the last payload byte closes the
frame that the others leave open. -/
theorem txFrameSendsEncodeFrame : Obligations.TxFrameSendsEncodeFrame := by
  intro tag p s hidle hrem hn
  obtain rfl | ⟨q, b, rfl⟩ := List.eq_nil_or_concat' p
  · have hexec := exec_txBegin_eq tag 0 s
    rw [txBeginEffect_of_idle tag hidle (by omega), beginFrame_zero] at hexec
    exact ⟨tag, _, runAll_cons hexec []⟩
  · rw [List.length_append, List.length_singleton] at hn ⊢
    obtain ⟨r, hrun⟩ := runAll_txBegin_txData tag (q := q) hidle (Nat.lt_succ_self _) hn
    have hexec := exec_txData_openFrame tag (q.length + 1) q b { s with resp := r }
    rw [dataByte_openFrame_last tag q b (by exact hidle) (by exact hrem) hn] at hexec
    rw [List.map_append, ← List.cons_append, runAll_append hrun]
    exact ⟨_, _, runAll_cons hexec []⟩

end Sys2Proof.Machine
end

section
/-! PROOFS. The family `other`, what every step keeps: the accumulator (rule R191), the encoder's
registers (rule R230), FAULT (rule R36), the Frame Buffer's canonical form, and so what holds of
every reachable state. -/

namespace Sys2Proof.Machine

/-! Rule R191. -/

/-- Rule R191 rests on rule R190: RCK is 0 before the tag is summed. -/
structure SessionAccumInv (s : State) : Prop where
  session : SessionInv s
  accum : AccumInv s

theorem SessionAccumInv.congr {s t : State} (h : SameDecoder s t) (hs : SessionAccumInv s) :
    SessionAccumInv t :=
  ⟨hs.session.congr h, hs.accum.congr h.kind h.pos h.buf h.tag h.rck⟩

theorem resetBlock_sessionAccumInv (s : State) : SessionAccumInv (resetBlock s) :=
  ⟨resetBlock_sessionInv s, accumInv_of_pos_lt (by simp)⟩

theorem sessionAccumInv_keptByOps : KeptByOps SessionAccumInv := by
  refine keptByOps_of_decoder .congr ?byte ?release ?session fun s _ => resetBlock_sessionAccumInv s
  case byte =>
    intro b s hkind ⟨hsess, hacc⟩
    exact ⟨rxStep_sessionInv b s hkind hsess, rxStep_accumInv b s hkind hsess hacc⟩
  case release =>
    intro s ⟨hsess, hacc⟩
    exact ⟨release_sessionInv s hsess, release_accumInv s hsess hacc⟩
  case session =>
    intro s hkind ⟨hsess, _⟩
    exact ⟨resetSession_sessionInv s hkind hsess, accumInv_of_pos_lt (by simp)⟩

/-- Rule R168: a byte at POS = 3 that leaves the decoder past the tag was the tag. -/
theorem rxStep_currentFrame_nil (b : Byte) {s : State} (hpos : s.pos = 3#16) (hrck : s.rck = 0#8)
    (hkind : (rxStep b s).kind = .none) (h4 : 4 ≤ (rxStep b s).pos.toNat) :
    CurrentFrame (rxStep b s) [] := by
  rcases rxStep_cases b s with ⟨h0, _⟩ | ⟨h0, _⟩ | ⟨_, _, h⟩ | ⟨_, _, _, h⟩ | ⟨_, _, h⟩
  case inl | inr.inl => simp [hpos] at h0
  case inr.inr.inl => rw [h, stepRestart_eq] at hkind; simp at hkind
  case inr.inr.inr.inl => rw [h] at h4; simp [hpos] at h4
  case inr.inr.inr.inr =>
    generalize rxStep b s = t at h hkind h4 ⊢
    cases h with
    | lenMsb h | lenLsb h => simp [hpos] at h
    | tag => exact currentFrame_nil rfl (by rw [hrck])
    | complete h | checksumFailure h | oversize h | store h => simp [hpos] at h

/-- Rules R163 and R171: past the tag, a byte that leads to no result is an escape marker, which
leaves the payload, or it is unstuffed and extends the payload. -/
theorem rxStep_currentFrame (b : Byte) {s : State} {p : List Byte} (hs : CurrentFrame s p)
    (hkind : (rxStep b s).kind = .none) :
    CurrentFrame (rxStep b s)
      (if s.esc = false ∧ b = escByte then p else p ++ [unstuffed b s]) := by
  have h4 : 4 ≤ s.pos.toNat := by rw [hs.pos]; omega
  rcases rxStep_cases b s with ⟨h0, _⟩ | ⟨h0, _⟩ | ⟨_, _, h⟩ | ⟨_, hb, hesc, h⟩ | ⟨_, hesc, h⟩
  case inl | inr.inl => simp [h0] at h4
  case inr.inr.inl => rw [h, stepRestart_eq] at hkind; simp at hkind
  case inr.inr.inr.inl => rw [if_pos ⟨hesc, hb⟩, h]; exact hs.congr rfl rfl rfl rfl
  case inr.inr.inr.inr =>
    rw [if_neg hesc]
    generalize rxStep b s = t at h hkind ⊢
    cases h with
    | lenMsb h | lenLsb h | tag h => simp [h] at h4
    | complete | checksumFailure | oversize => simp at hkind
    | store _ _ hroom => exact hs.store _ hroom

/-- Settles O49: rules R190 and R191 together are kept by every shared operation; at POS = 3 and
past the tag, the byte's case says what the frame in progress becomes. -/
theorem accumulatorInvariantKept : Obligations.AccumulatorInvariantKept := by
  refine ⟨fun s t hsess hacc hstep => ?step, fun c q n a => ?powerOn,
    fun b s hsess hkind hpos => ?tag, fun b d p s hkind hs hd => ?payload⟩
  case step => exact (sessionAccumInv_keptByOps.step ⟨hsess, hacc⟩ hstep).accum
  case powerOn =>
    obtain ⟨hsess, hacc⟩ : SessionAccumInv { State.powerOn c q n with agenda := a } :=
      .congr (by constructor <;> rfl) (resetBlock_sessionAccumInv (State.powerOn c q n))
    exact ⟨hsess, hacc⟩
  case tag =>
    have hrck := hsess.header hkind (.inr (.inr hpos))
    exact ⟨_, exec_rxByte_of_idle hkind rfl, fun hnone h4 =>
      (rxStep_currentFrame_nil b hpos hrck hnone h4).congr rfl rfl rfl rfl⟩
  case payload =>
    subst hd
    exact ⟨_, exec_rxByte_of_idle hkind rfl, fun hnone =>
      (rxStep_currentFrame b hs hnone).congr rfl rfl rfl rfl⟩

/-! Rule R230 on the registers. -/

theorem TxInv.congr {s t : State} (hs : TxInv s) (hbusy : t.txBusy = s.txBusy)
    (hrem : t.txRem = s.txRem) : TxInv t :=
  ⟨by rw [hbusy, hrem]; exact hs.idle, by rw [hbusy, hrem]; exact hs.range⟩

theorem txInv_of_idle {s : State} (hbusy : s.txBusy = false) (hrem : s.txRem = 0#16) : TxInv s :=
  ⟨by simp [hbusy, hrem], by simp [hbusy]⟩

theorem txInv_of_busy {s : State} (hbusy : s.txBusy = true) (hpos : 1 ≤ s.txRem.toNat)
    (hmax : s.txRem.toNat ≤ 0xFFFE) : TxInv s := by
  refine ⟨?_, fun _ => ⟨hpos, hmax⟩⟩
  have hne : s.txRem ≠ 0#16 := by rintro h; simp [h] at hpos
  simp [hbusy, hne]

/-- Rule R222: TX_BEGIN leaves no frame open for n = 0, and one of n bytes otherwise. -/
theorem beginFrame_txInv (tag : Byte) {n : Nat} {s : State} (hidle : s.txBusy = false)
    (hn : n ≤ 0xFFFE) (hs : TxInv s) : TxInv (beginFrame tag n s) := by
  by_cases h0 : n = 0
  · rw [beginFrame, if_pos h0]
    exact txInv_of_idle hidle (hs.idle.mp hidle)
  · rw [beginFrame, if_neg h0]
    have hrem : (BitVec.ofNat 16 n).toNat = n := by rw [BitVec.toNat_ofNat]; omega
    exact txInv_of_busy rfl (by rw [hrem]; omega) (by rw [hrem]; omega)

/-- Rule R223: TX_DATA counts TX_REM down, and closes the frame at 0. -/
theorem dataByte_txInv (b : Byte) {s : State} (hbusy : s.txBusy = true) (hs : TxInv s) :
    TxInv (dataByte b s) := by
  obtain ⟨hpos, hmax⟩ := hs.range hbusy
  unfold dataByte
  dsimp only
  split
  · next hlast => exact txInv_of_idle rfl hlast
  · next hopen =>
    have hrem : (s.txRem - 1#16).toNat = s.txRem.toNat - 1 := by
      rw [BitVec.toNat_sub, BitVec.toNat_ofNat]; omega
    have hne : (s.txRem - 1#16).toNat ≠ 0 := fun h => hopen (BitVec.eq_of_toNat_eq h)
    exact txInv_of_busy hbusy (by show 1 ≤ (s.txRem - 1#16).toNat; omega)
      (by show (s.txRem - 1#16).toNat ≤ 0xFFFE; omega)

theorem txInv_keptByOps : KeptByOps TxInv where
  resp _ _ hs := hs.congr rfl rfl
  wait _ _ hs := hs.congr rfl rfl
  agenda _ _ hs := hs.congr rfl rfl
  draws _ _ hs := hs.congr rfl rfl
  rxq _ _ hs := hs.congr rfl rfl
  now _ _ hs := hs.congr rfl rfl
  txlog _ _ hs := hs.congr rfl rfl
  raise _ _ hs := hs.congr rfl rfl
  rxStep b s _ hs := hs.congr (rxStep_sameOutside b s).txBusy (rxStep_sameOutside b s).txRem
  release s hs := hs.congr (release_txBusy s) (release_txRem s)
  session _ _ hs := hs.congr rfl rfl
  reset _ _ := txInv_of_idle rfl rfl
  beginFrame tag _ _ := beginFrame_txInv tag
  dataByte b _ := dataByte_txInv b

/-- Settles O51: TX_BEGIN opens a frame of n bytes only for 1 ≤ n ≤ 0xFFFE, and TX_DATA closes it as
TX_REM reaches 0. -/
theorem txInvariantKept : Obligations.TxInvariantKept :=
  ⟨fun _ _ => txInv_keptByOps.step, fun _ _ _ _ => txInv_of_idle rfl rfl⟩

/-! Rule R36. -/

/-- A predicate on FAULT is kept by every shared operation once setting a bit keeps it. -/
theorem keptByOps_of_fault {P : BitVec 8 → Prop}
    (hset : ∀ (f : FaultBit) (x : BitVec 8), P x → P (x ||| BitVec.twoPow 8 f.index)) :
    KeptByOps (fun s => P s.fault) where
  resp _ _ hs := hs
  wait _ _ hs := hs
  agenda _ _ hs := hs
  draws _ _ hs := hs
  rxq _ _ hs := hs
  now _ _ hs := hs
  txlog _ _ hs := hs
  raise s f hs := hset f s.fault hs
  rxStep b s _ hs := (rxStep_sameOutside b s).fault.symm ▸ hs
  release s hs := (release_fault s).symm ▸ hs
  session _ _ hs := hs
  reset _ hs := hs
  beginFrame tag n s _ _ hs := (beginFrame_fault tag n s).symm ▸ hs
  dataByte b s _ hs := (dataByte_fault b s).symm ▸ hs

theorem faultBit_keptByOps (k : Nat) : KeptByOps (fun s => s.fault.getLsbD k = true) :=
  keptByOps_of_fault (P := fun x => x.getLsbD k = true) fun f x h => by
    rw [BitVec.getLsbD_or, h, Bool.true_or]

/-- The five fault bits of rule R36 lie below bit 5. -/
theorem faultReserved_keptByOps : KeptByOps FaultReserved :=
  keptByOps_of_fault (P := fun x => x.toNat < 32) fun f x h => by
    rw [BitVec.toNat_or]
    exact Nat.or_lt_two_pow (n := 5) h (by cases f <;> decide)

/-- Settles O41: FAULT is only ever written by setting a bit. -/
theorem faultBitsAreSticky : Obligations.FaultBitsAreSticky := fun _ _ hstep =>
  ⟨fun k hk => (faultBit_keptByOps k).step hk hstep,
    fun hs => faultReserved_keptByOps.step hs hstep⟩

/-! The Frame Buffer's canonical form. -/

theorem rxStep_buf_wf (b : Byte) (s : State) (hs : Memory.wf s.buf = true) :
    Memory.wf (rxStep b s).buf = true := by
  rcases rxStep_cases b s with ⟨_, _, h⟩ | ⟨_, _, h⟩ | ⟨_, _, h⟩ | ⟨_, _, _, h⟩ | ⟨_, _, h⟩
  case inr.inr.inl => rw [h, stepRestart_eq]; exact hs
  case inr.inr.inr.inr =>
    generalize rxStep b s = t at h ⊢
    cases h with
    | store => exact bufWrite_wf _ _ _ hs
    | _ => exact hs
  all_goals rw [h]; exact hs

theorem memory_wf_keptByOps : KeptByOps (fun s => Memory.wf s.buf = true) :=
  keptByOps_of_decoder (fun h hs => by rw [h.buf]; exact hs) (fun b s _ => rxStep_buf_wf b s)
    (fun s hs => by rw [release_buf]; exact hs) (fun _ _ hs => hs) (fun s _ => resetBlock_wf s)

/-- Settles O52: `bufWrite` is the one write of the buffer, and it keeps the order. -/
theorem memoryStaysCanonical : Obligations.MemoryStaysCanonical :=
  ⟨fun _ _ => memory_wf_keptByOps.step, fun _ _ _ => rfl⟩

/-! Rule R30: ERR never holds the Timeout code. -/

theorem rxStep_noTimeoutHeld (b : Byte) (s : State) (hs : NoTimeoutHeld s) :
    NoTimeoutHeld (rxStep b s) := by
  rcases rxStep_cases b s with ⟨_, _, h⟩ | ⟨_, _, h⟩ | ⟨_, _, h⟩ | ⟨_, _, _, h⟩ | ⟨_, _, h⟩
  case inr.inr.inl => rw [h, stepRestart_eq]; simp [NoTimeoutHeld]
  case inr.inr.inr.inr =>
    generalize rxStep b s = t at h ⊢
    cases h with
    | complete | checksumFailure | oversize => simp [NoTimeoutHeld]
    | lenMsb | lenLsb | tag | store => exact hs
  all_goals rw [h]; exact hs

theorem release_noTimeoutHeld (s : State) (hs : NoTimeoutHeld s) : NoTimeoutHeld (release s) := by
  rw [NoTimeoutHeld, release_err]
  split
  · exact nofun
  · exact hs

theorem noTimeoutHeld_keptByOps : KeptByOps NoTimeoutHeld :=
  keptByOps_of_decoder (fun h hs => by rw [NoTimeoutHeld, h.err]; exact hs)
    (fun b s _ => rxStep_noTimeoutHeld b s) release_noTimeoutHeld (fun _ _ hs => hs)
    (fun _ _ => nofun)

/-! Rule R182: an RX_WAIT waits only while no result is held. -/

theorem waitIterate_waitInv (w : Wait) (s : State) : WaitInv (waitIterate w s) := by
  unfold waitIterate
  dsimp only
  split
  · exact fun h => absurd rfl h
  · next hkind =>
    have hnone : (pollBody s).kind = .none := by simpa using hkind
    split
    · exact fun h => absurd rfl h
    · exact fun _ => hnone

theorem waitInv_of_wait_none {t : State} (h : t.wait = none) : WaitInv t :=
  fun hwait => absurd h hwait

/-- Of the commands, RX_WAIT alone begins to wait. -/
theorem exec_waitInv {i : Instr} {s t : State} (hwait : s.wait = none) (h : exec i s = .next t) :
    WaitInv t := by
  cases exec_cases h with
  | respond | rdBuf | tx => exact waitInv_of_wait_none hwait
  | reset => exact waitInv_of_wait_none rfl
  | rx hi =>
    obtain rfl | rfl | ⟨n, rfl⟩ | ⟨b, hb⟩ := hi.cases
    · cases h
      exact waitInv_of_wait_none ((pollBody_release_sameOutside s).wait.trans hwait)
    · cases h
      exact waitInv_of_wait_none ((release_wait s).trans hwait)
    · cases h
      exact waitIterate_waitInv _ _
    · cases (hb s).symm.trans h
      rw [giveByte_eq]
      exact waitInv_of_wait_none ((offerByte_sameOutside b s).wait.trans hwait)

theorem step_waitInv {s t : State} (hs : WaitInv s) (h : step s = .next t) : WaitInv t := by
  rcases step_cases h with rfl | ⟨e, rest, _, rfl⟩ | ⟨w, _, _, rfl⟩ |
    ⟨_, i, rest, hwait, _, _, hexec⟩ | ⟨_, _, rest, hwait, _, _, rfl⟩
  · exact hs
  · exact fun hlifted => hs fun hnone => hlifted (Option.map_eq_none_iff.mpr hnone)
  · exact waitIterate_waitInv w s
  · exact exec_waitInv (s := { s with agenda := rest }) hwait hexec
  · exact waitInv_of_wait_none hwait

/-! Every reachable state. -/

/-- What holds at power-on and is kept by every step holds of every reachable state. -/
theorem Reachable.induct {c : Config} {P : State → Prop}
    (hstart : ∀ q n a, P { State.powerOn c q n with agenda := a })
    (hstep : ∀ s t, P s → Machine.step s = .next t → P t) {s : State} (h : Reachable c s) :
    P s := by
  induction h with
  | start q n a => exact hstart q n a
  | step _ hnext ih => exact hstep _ _ ih hnext

/-- The same for what every shared operation keeps. -/
theorem KeptByOps.reachable {P : State → Prop} (k : KeptByOps P) {c : Config}
    (hstart : ∀ q n a, P { State.powerOn c q n with agenda := a }) {s : State}
    (h : Reachable c s) : P s :=
  h.induct hstart fun _ _ => k.step

theorem powerOn_decoderInv (c : Config) (q : List Byte) (n : Nat) (a : List Input) :
    DecoderInv { State.powerOn c q n with agenda := a } :=
  .congr (by constructor <;> rfl) (resetBlock_decoderInv (State.powerOn c q n))

/-- Settles O54: each invariant holds at power-on, and every shared operation keeps it; for WaitInv
it is every step that does. -/
theorem reachableStatesAreSound : Obligations.ReachableStatesAreSound := by
  intro c s h
  obtain ⟨hsess, hbounds, hacc, hcomplete⟩ :=
    decoderInv_keptByOps.reachable (powerOn_decoderInv c) h
  refine ⟨?cfg, hsess, hbounds, hacc, hcomplete, ?tx, ?timeout, ?fault, ?wait, ?memory⟩
  case cfg => exact (cfg_keptByOps c).reachable (fun _ _ _ => rfl) h
  case tx => exact txInv_keptByOps.reachable (fun _ _ _ => txInv_of_idle rfl rfl) h
  case timeout => exact noTimeoutHeld_keptByOps.reachable (fun _ _ _ => nofun) h
  case fault =>
    exact faultReserved_keptByOps.reachable (fun _ _ _ => (by decide : (0#8).toNat < 32)) h
  case wait => exact h.induct (fun _ _ _ => waitInv_of_wait_none rfl) fun _ _ => step_waitInv
  case memory => exact memory_wf_keptByOps.reachable (fun _ _ _ => rfl) h

/-- Settles O53: `State.reset` is reachable, as power-on with the standard parameters. -/
theorem invariantsHoldAtReset : Obligations.InvariantsHoldAtReset := by
  have hreset : Reachable Config.standard State.reset := .start [] 0 []
  obtain ⟨-, hsess, hbounds, hacc, hcomplete, htx, htimeout, hfault, hwait, hmemory⟩ :=
    reachableStatesAreSound _ _ hreset
  exact ⟨hsess, hbounds, hacc, hcomplete, htx, hfault, hwait, htimeout, hmemory⟩

end Sys2Proof.Machine
end
